-- ==== Sys2Proof/Word.lean ====
section
/-! DEFINITION. The word types of the block: bytes, the bus address and handle, result words and command words, and
the two widths that are named constants (00_scope.md R7, R8). -/

namespace Sys2Proof

/-- `BUS_ADDR_W`: width of the bus address in bits (00_scope.md R7). -/
abbrev Config.busAddrW : Nat := 7

/-- `HANDLE_W`: width of the opaque bus handle (00_scope.md R8, D6: the default). -/
abbrev Config.handleW : Nat := 8

/-- A byte: a buffer byte, a command byte, a parameter byte, a selector (00_scope.md R9). -/
abbrev Byte := BitVec 8

/-- A bus address (10_state.md R24). -/
abbrev BusAddr := BitVec Config.busAddrW

/-- The opaque bus handle (10_state.md R25, D6). -/
abbrev BusHandle := BitVec Config.handleW

/-- A host result word, 16 bits (30_encoding.md R70). -/
abbrev Word16 := BitVec 16

/-- A host command word, 32 bits (30_encoding.md R64). -/
abbrev Word32 := BitVec 32

/-- The codes `IoErr` takes its values from, 8 bits (00_scope.md R8, D4). Which of them a transport answers is
`Config.isIoErr`; the field of a result word holds any (30_encoding.md R70). DESIGN CHOICE, log 2; safe. -/
abbrev IoErr := BitVec 8

/-- A duration in milliseconds, 16 bits wide (30_encoding.md R81, D23). -/
abbrev Millis := BitVec 16

end Sys2Proof
end

