-- ==== Sys2Proof/Config.lean ====
section
/-! DEFINITION. What is fixed for one machine: the constants of 00_scope.md R7, the parameters of R8 with their
defaults, and the free values (opaque constants without a body: nothing in Lean can prove a value of one). -/

namespace Sys2Proof.Config

open Sys2Proof

/-! ## Fixed constants (00_scope.md R7) -/

/-- `WIDTH`: columns per page, bytes per data burst. -/
def width : Nat := 128
/-- `HEIGHT`: pixel rows. -/
def height : Nat := 64
/-- `PAGES`: number of pages. -/
def pages : Nat := 8
/-- `ROWS_PER_PAGE`: pixel rows per page, bits per buffer byte. -/
def rowsPerPage : Nat := 8
/-- `SEL_CMD`: the selector of the command channel. -/
def selCmd : Byte := 0x00
/-- `SEL_DATA`: the selector of the pixel-data channel. -/
def selData : Byte := 0x40
/-- `FB_BYTES`: buffer bytes, `PAGES × WIDTH`. -/
def fbBytes : Nat := pages * width

/-! ## Operation codes of the command word (30_encoding.md R65), as the matches of its rows (R66 to R68) -/

def initMatch : Word32 := 0x10000000
def initMask : Word32 := 0xFFFF0080
def setPixelMatch : Word32 := 0x60000000
def setPixelMask : Word32 := 0xFFFE0000
def deinitWord : Word32 := 0x20000000
def powerOnWord : Word32 := 0x30000000
def powerOffWord : Word32 := 0x40000000
def clearWord : Word32 := 0x50000000
def updateDisplayWord : Word32 := 0x70000000

/-! ## Panel command bytes (30_encoding.md R77 to R79). PRESUMED, log 3: the spec marks every value as general
knowledge (93_implementation_defined.md G1 to G3) and as a parameter of the model (D22); unsafe. -/

def cmdDisplayOff : Byte := 0xAE
def cmdDisplayOn : Byte := 0xAF
def cmdClockDiv : Byte := 0xD5
def cmdMuxRatio : Byte := 0xA8
def cmdDisplayOffset : Byte := 0xD3
def cmdSegRemap : Byte := 0xA1
def cmdComScanRev : Byte := 0xC8
def cmdComPins : Byte := 0xDA
def cmdContrast : Byte := 0x81
def cmdPrecharge : Byte := 0xD9
def cmdVcomh : Byte := 0xDB
def cmdResumeRam : Byte := 0xA4
def cmdNormalPolarity : Byte := 0xA6
def cmdScrollOff : Byte := 0x2E
def cmdAddrMode : Byte := 0x20
def cmdChargePump : Byte := 0x8D
def cmdSetColRange : Byte := 0x21
def cmdSetPageRange : Byte := 0x22

/-! Parameter bytes of the bring-up (30_encoding.md R78), the defaults. -/

/-- `CLOCK_DIV`, OPEN, default 0x80. PRESUMED, log 3. -/
def clockDiv : Byte := 0x80
/-- The multiplex ratio, the document's `HEIGHT − 1` = 63. -/
def muxRatio : Byte := BitVec.ofNat 8 (height - 1)
/-- The display offset, the document's 0. -/
def displayOffset : Byte := 0x00
/-- `COM_PINS`, OPEN, default 0x12. PRESUMED, log 3. -/
def comPins : Byte := 0x12
/-- `CONTRAST`, OPEN, default 0xCF. PRESUMED, log 3. -/
def contrast : Byte := 0xCF
/-- `PRECHARGE`, OPEN, default 0xF1. PRESUMED, log 3. -/
def precharge : Byte := 0xF1
/-- `VCOMH`, OPEN, default 0x40. PRESUMED, log 3. -/
def vcomh : Byte := 0x40
/-- The value of the addressing-mode parameter that selects horizontal addressing, 0x00. PRESUMED, log 3. -/
def addrModeHorizontal : Byte := 0x00
/-- The charge-pump parameter that enables it, 0x14. PRESUMED, log 3. -/
def chargePumpEnable : Byte := 0x14

/-- `IoErr`, the transport's error values: the default set, the codes 0x01 to 0xFF (00_scope.md R8, D4; log 2). -/
def isIoErr (e : IoErr) : Bool := e != 0

/-- `BUS_ADDR_VALUES` (00_scope.md R8, D15): informative, checked by no operation. PRESUMED, log 3. -/
def busAddrValues : List BusAddr := [0x3C, 0x3D]

/-! ## The open parameters of the block (00_scope.md R8; D22, D23: OPEN) -/

/-- The parameters wired into one block. The block holds them in its state and no step changes them, so what is
proved of every state holds for every value of them (log 32). -/
structure Params where
  /-- `SETTLE_MS`, the settle delay of the bring-up. -/
  settleMs : Millis
  /-- `BRINGUP`, the configuration command groups, each a list of 1 or 2 bytes. -/
  bringup : List (List Byte)
  /-- `CMD_DISPLAY_ON`. -/
  cmdDisplayOn : Byte
  /-- `CMD_DISPLAY_OFF`. -/
  cmdDisplayOff : Byte
  /-- `CMD_SET_COL_RANGE`. -/
  cmdSetColRange : Byte
  /-- `CMD_SET_PAGE_RANGE`. -/
  cmdSetPageRange : Byte
  deriving DecidableEq, Repr

/-- The shape R8 gives `BRINGUP`: 15 groups of 1 or 2 bytes. -/
def Params.wf (p : Params) : Bool :=
  p.bringup.length == 15 && p.bringup.all fun g => g.length == 1 || g.length == 2

/-- The default of `BRINGUP`: the fifteen configuration command groups in the document's order (30_encoding.md R78). -/
def bringup : List (List Byte) :=
  [ [cmdDisplayOff], [cmdClockDiv, clockDiv], [cmdMuxRatio, muxRatio], [cmdDisplayOffset, displayOffset],
    [cmdSegRemap], [cmdComScanRev], [cmdComPins, comPins], [cmdContrast, contrast] ] ++
  [ [cmdPrecharge, precharge], [cmdVcomh, vcomh], [cmdResumeRam], [cmdNormalPolarity],
    [cmdScrollOff], [cmdAddrMode, addrModeHorizontal], [cmdChargePump, chargePumpEnable] ]

/-- The defaults of the open parameters (00_scope.md R8). PRESUMED, log 3: `SETTLE_MS` 100 and every byte are marked
there as general knowledge. -/
def params : Params where
  settleMs := 100
  bringup := bringup
  cmdDisplayOn := cmdDisplayOn
  cmdDisplayOff := cmdDisplayOff
  cmdSetColRange := cmdSetColRange
  cmdSetPageRange := cmdSetPageRange

/-- The six bytes of the cursor-set command pair for page `n` (30_encoding.md R77): columns 0 to `WIDTH − 1`,
pages `n` to `PAGES − 1`. -/
def cursorSet (p : Params) (n : Nat) : List Byte :=
  [ p.cmdSetColRange, 0x00, BitVec.ofNat 8 (width - 1),
    p.cmdSetPageRange, BitVec.ofNat 8 n, BitVec.ofNat 8 (pages - 1) ]

/-! ## Free values

Each is applied to the panel's draw counter, so that every draw is a fresh value about which nothing is known. -/

/-- Whether the panel took the byte of a failed or abandoned command write (93_implementation_defined.md U4, log 15). -/
opaque panelTookByte : Nat → Bool

/-- Whether the panel resynchronises, dropping the command it has not finished, after a failed or abandoned
operation (70_reset_and_hazards.md R203, U4, log 33). -/
opaque panelResyncs : Nat → Bool

/-- How many bytes of a failed or abandoned data burst moved the panel's cursor (U4, log 15). -/
opaque burstPrefix : Nat → Nat

/-- A byte register of the panel after something no source gives an effect for; the second argument numbers the
register (logs 16 and 17). -/
opaque freePanelByte : Nat → Nat → Byte

/-- A one-bit register of the panel in the same case (logs 16 and 17). -/
opaque freePanelBit : Nat → Nat → Bool

/-- The bytes of an unfinished command the panel may hold in the same case (logs 16 and 17). -/
opaque freePending : Nat → List Byte

/-- `GLYPH_SMALL`: glyph number, column (00_scope.md R8, D26: OPEN; log 21). -/
opaque glyphSmall : Nat → Nat → Byte

/-- `GLYPH_LARGE`: glyph number, byte 0 to 15 (00_scope.md R8, D26: OPEN; log 21). -/
opaque glyphLarge : Nat → Nat → Byte

end Sys2Proof.Config
end

