-- ==== Sys2Proof/Syntax.lean ====
section
/-! DEFINITION. The instructions: one constructor for each of the 30 rows of spec/opcode_table.json, in the
table's order, on the four layers the table names. -/

namespace Sys2Proof

/-- The table's layers (30_encoding.md, opening): the host's command words, the host's result words, the
selectors of the transport, the command bytes of the panel. -/
inductive Layer where
  | hostCommand
  | hostResult
  | transportSelector
  | panelCommand
  deriving DecidableEq, Repr

/-- A colour (00_scope.md R14, D20): "binary {ON, OFF}; no intensity levels". -/
inductive Color where
  | off
  | on
  deriving DecidableEq, Repr

/-- One constructor per row of the opcode table. -/
inductive Instr where
  -- host command words (30_encoding.md R65 to R68)
  | init (busAddress : BusAddr) (busHandle : BusHandle)
  | deinit
  | powerOn
  | powerOff
  | clear
  | setPixel (x y : Byte) (color : Color)
  | updateDisplay
  -- host result words (30_encoding.md R70)
  | resultOk
  | resultInvalidArgument
  | resultIoError (e : IoErr)
  -- transport selectors (30_encoding.md R73)
  | selCmd
  | selData
  -- panel command bytes with their parameter bytes (30_encoding.md R77 to R79)
  | panelDisplayOff
  | panelClockDiv (v : Byte)
  | panelMuxRatio (v : Byte)
  | panelDisplayOffset (v : Byte)
  | panelSegRemap
  | panelComScanRev
  | panelComPins (v : Byte)
  | panelContrast (v : Byte)
  | panelPrecharge (v : Byte)
  | panelVcomh (v : Byte)
  | panelResumeRam
  | panelNormalPolarity
  | panelScrollOff
  | panelAddrMode (v : Byte)
  | panelChargePump (v : Byte)
  | panelDisplayOn
  | panelSetColRange (first last : Byte)
  | panelSetPageRange (first last : Byte)
  deriving DecidableEq, Repr

end Sys2Proof
end

