-- ==== Sys2Proof/Machine/State.lean ====
section
/-! DEFINITION. The state: the block's eight pieces of 10_state.md R20, what stands at its ports, the records `T`
and the results, and the panel outside the block (R33). Plain data throughout. -/

namespace Sys2Proof.Machine

open Sys2Proof

/-- Bytes by address, in one canonical form: see `Memory.wf` and `Memory.rising` (Machine/Memory.lean). -/
abbrev Memory := List Host.Cell

/-- The two logical registers of the transport (20_memory.md R43). No other selector is ever sent (R73). -/
inductive Selector where
  | cmd
  | data
  deriving DecidableEq, Repr

/-- The answer to one transport write (R47, D30). -/
inductive Answer where
  | ok
  | err (e : IoErr)
  deriving DecidableEq, Repr

/-- The result of an operation (60_exceptions.md R160). -/
inductive Result where
  | ok
  | invalidArgument
  | ioError (e : IoErr)
  deriving DecidableEq, Repr

/-- A request the block has issued and waits on: a transport write (R47) or a delay (R175). -/
inductive Request where
  | write (sel : Selector) (bytes : List Byte)
  | delay (ms : Millis)
  deriving DecidableEq, Repr

/-- An item of the trace `T` (00_scope.md R11, 30_encoding.md R72). -/
inductive Event where
  | write (handle : BusHandle) (addr : BusAddr) (sel : Selector) (bytes : List Byte)
  | delay (ms : Millis)
  deriving DecidableEq, Repr

/-- A host operation with the operands the block captured when it accepted the word (R63). -/
inductive Operation where
  | init (busAddress : BusAddr) (busHandle : BusHandle)
  | deinit
  | powerOn
  | powerOff
  | clear
  | setPixel (x y : Byte) (color : Color)
  | updateDisplay
  deriving DecidableEq, Repr

/-- One action of an operation's fixed list (10_state.md R27; the lists: R93, R96 to R98, R111, R112, R149). -/
inductive Action where
  /-- `INIT` action 0: bind both handles, latch handle and address, `ctx.initialized <- 0` (R93). -/
  | bind (busAddress : BusAddr) (busHandle : BusHandle)
  /-- `DEINIT` action 0: `ctx.initialized <- 0` (R96). -/
  | unmark
  /-- `Cmd(b)`: one command write of one byte (R75). -/
  | send (b : Byte)
  /-- `DelayMs(n)` (R81). -/
  | delay (ms : Millis)
  /-- Zero-fill `fb` (R93 action 26, R111). -/
  | zeroFill
  /-- Set or clear one pixel (R112). -/
  | plot (x y : Byte) (color : Color)
  /-- The data burst of page `p` (R80). -/
  | burst (p : Nat)
  deriving DecidableEq, Repr

/-- The sequencer position (10_state.md R27). -/
inductive Seq where
  | idle
  | run (op : Operation) (k : Nat)
  deriving DecidableEq, Repr

/-- The three level inputs (10_state.md R30). -/
structure Pins where
  transportPresent : Bool
  transportCanWrite : Bool
  timingPresent : Bool
  deriving DecidableEq, Repr

/-- What stands offered at a port (logs 7, 9, 10, 19, 27). -/
inductive Offer where
  /-- A command word the host offers (R63: `cmd_valid`, `cmd`). -/
  | command (w : Word32)
  /-- A result word driven on the result port (R63: `resp_valid`, `resp`). The port is an output: no event from
  outside puts one here (R12, R29), only `State.withFetchWord` does, for the table's rows (log 9). -/
  | result (w : Word16)
  /-- The selector byte of a transaction on the transport (R72). -/
  | selector (b : Byte)
  /-- Bytes of a transaction on the transport, after its selector. -/
  | bus (bytes : List Byte)
  deriving DecidableEq, Repr

/-- The panel controller as a consumer (60_exceptions.md R181; R33; log 11): its display memory, cursor and ranges,
on bit, the settings its configuration commands set (log 12), the bytes of an unfinished command (R203), and the
model's own counter of free values drawn (log 15). -/
structure Panel where
  ram : Memory
  colLo : Byte
  colHi : Byte
  pageLo : Byte
  pageHi : Byte
  col : Byte
  page : Byte
  on : Bool
  clockDiv : Byte
  muxRatio : Byte
  displayOffset : Byte
  segRemap : Bool
  comScanReversed : Bool
  comPins : Byte
  contrast : Byte
  precharge : Byte
  vcomh : Byte
  followRam : Bool
  normalPolarity : Bool
  scrolling : Bool
  addrMode : Byte
  chargePump : Byte
  pending : List Byte
  draws : Nat
  deriving DecidableEq, Repr

/-- Why the machine stops with a fault. No reachable state does (log 24). -/
inductive Fault where
  /-- Raised by the buffer's reads and writes (Machine/Ops.lean) at a page or column that does not exist
  (20_memory.md R41: no operation can name one). Safe: the model stops. -/
  | noSuchBufferByte (page column : Nat)
  /-- Raised by the sequencer (Machine/Sequencer.lean) at a position that is no action of its operation
  (10_state.md R27: it never skips). Safe: the model stops. -/
  | noSuchAction (op : Operation) (k : Nat)
  deriving DecidableEq, Repr

/-- Why the machine gives a word no meaning. -/
inductive Refusal where
  /-- Raised by `exec` alone, for an instruction without a meaning; every instruction of the table has one. Safe. -/
  | notModelled (mnemonic : String)
  /-- Raised by the fetch (Machine/Fetch.lean) at a result word no operation produces (R70: kind 3 "never
  produced"; log 25). Safe: the model stops. -/
  | resultNeverProduced (w : Word16)
  /-- Raised by the fetch at a selector byte other than 0x00 and 0x40 (R73: "No other value is ever sent", U10;
  log 25). Safe: the model stops. -/
  | selectorNeverSent (b : Byte)
  deriving DecidableEq, Repr

/-- The state. -/
structure State where
  -- the open parameters wired into the block, changed by nothing (00_scope.md R8; log 32)
  params : Config.Params
  -- the block (10_state.md R20)
  fb : Memory
  initialized : Bool
  busAddr : BusAddr
  busHandle : BusHandle
  tpBound : Bool
  tmBound : Bool
  seq : Seq
  lastResult : Result
  -- the request on its ports that is not answered yet (R47, R177)
  request : Option Request
  -- inputs (R30, R47, R63, R175, R190)
  pins : Pins
  rst : Bool
  port : List Offer
  answers : List Answer
  delaysDone : Nat
  -- records: `T` (R11) and the result words (R63)
  trace : List Event
  responses : List Word16
  -- outside the block (R33)
  channel : Selector
  panel : Panel
  deriving DecidableEq, Repr

/-- The panel at power-on. PRESUMED, log 13: the SSD1306 family's reset values; unsafe. Its display memory holds
nothing known (70_reset_and_hazards.md R193, log 14). -/
def Panel.reset : Panel where
  ram := []
  colLo := 0x00
  colHi := 0x7F
  pageLo := 0x00
  pageHi := 0x07
  col := 0x00
  page := 0x00
  on := false
  clockDiv := 0x80
  muxRatio := 0x3F
  displayOffset := 0x00
  segRemap := false
  comScanReversed := false
  comPins := 0x12
  contrast := 0x7F
  precharge := 0x22
  vcomh := 0x20
  followRam := true
  normalPolarity := true
  scrolling := false
  addrMode := 0x02
  chargePump := 0x10
  pending := []
  draws := 0

/-- The machine after reset: the block as 10_state.md R34 says; the inputs and records as logs 5, 6, 7, 20 and 22
say. -/
def State.reset : State where
  params := Config.params
  fb := []
  initialized := false
  busAddr := 0
  busHandle := 0
  tpBound := false
  tmBound := false
  seq := .idle
  lastResult := .ok
  request := none
  pins := ⟨true, true, true⟩
  rst := false
  port := []
  answers := []
  delaysDone := 0
  trace := []
  responses := []
  channel := .cmd
  panel := Panel.reset

end Sys2Proof.Machine
end

