-- ==== Sys2Proof/Machine/Memory.lean ====
section
/-! DEFINITION. Memories as lists of (address, byte) pairs in one canonical form: addresses strictly rising. The
frame buffer lists no zero byte, since an unlisted byte reads 0x00 (10_state.md R34); the panel's display memory
lists what it is known to hold (70_reset_and_hazards.md R193, log 14). -/

namespace Sys2Proof.Machine

open Sys2Proof

/-- The linear address of page `p`, column `c` (20_memory.md R42). -/
def linear (p c : Nat) : Nat := p * Config.width + c

/-- What is listed at an address. -/
def Memory.lookup (m : Memory) (a : Nat) : Option Byte :=
  match m with
  | [] => none
  | (b, v) :: rest => if b = a then some v else Memory.lookup rest a

/-- The memory with `v` listed at `a`. -/
def Memory.insert (m : Memory) (a : Nat) (v : Byte) : Memory :=
  match m with
  | [] => [(a, v)]
  | (b, u) :: rest =>
    if a < b then (a, v) :: (b, u) :: rest
    else if a = b then (a, v) :: rest
    else (b, u) :: Memory.insert rest a v

/-- The memory with nothing listed at `a`. -/
def Memory.erase (m : Memory) (a : Nat) : Memory :=
  match m with
  | [] => []
  | (b, u) :: rest => if b = a then Memory.erase rest a else (b, u) :: Memory.erase rest a

/-- The byte the frame buffer holds at an address: an unlisted byte is 0x00. -/
def Memory.read (m : Memory) (a : Nat) : Byte := (Memory.lookup m a).getD 0

/-- The frame buffer after a write: a zero is not listed. -/
def Memory.write (m : Memory) (a : Nat) (v : Byte) : Memory :=
  if v = 0 then Memory.erase m a else Memory.insert m a v

/-- Every address is at least `low`, and addresses rise strictly. -/
def Memory.risingFrom (low : Nat) (m : Memory) : Bool :=
  match m with
  | [] => true
  | (a, _) :: rest => low ≤ a && Memory.risingFrom (a + 1) rest

/-- The order of the canonical form. -/
def Memory.rising (m : Memory) : Bool := Memory.risingFrom 0 m

/-- Every address is a byte of the 8 × 128 space. -/
def Memory.inSpace (m : Memory) : Bool := m.all fun cell => cell.1 < Config.fbBytes

/-- No listed byte is zero. -/
def Memory.noZero (m : Memory) : Bool := m.all fun cell => cell.2 != 0

/-- The canonical form of the frame buffer. -/
def Memory.wf (m : Memory) : Bool := Memory.rising m && Memory.inSpace m && Memory.noZero m

end Sys2Proof.Machine
end

