-- ==== Sys2Proof/Machine/Operands.lean ====
section
/-! DEFINITION. The one addressing computation of the block (10_state.md R22, 41_buffer_ops.md R112) and the bytes
it assembles (30_encoding.md R71). -/

namespace Sys2Proof.Machine

open Sys2Proof

/-- `page(y) = y / 8` (R22). -/
def pageOf (y : Byte) : Nat := y.toNat / Config.rowsPerPage

/-- `bitno(y) = y % 8` (R22). -/
def bitOf (y : Byte) : Nat := y.toNat % Config.rowsPerPage

/-- The mask `1 << (y % 8)` (R112). -/
def pixelMask (y : Byte) : Byte := 1#8 <<< bitOf y

/-- The byte with the pixel of row `y` set to `c` (R112): `old | m` for ON, `old & ~m` for OFF. -/
def withPixel (y : Byte) (c : Color) (old : Byte) : Byte :=
  match c with
  | .on => old ||| pixelMask y
  | .off => old &&& ~~~pixelMask y

/-- Whether `(x, y)` is a pixel of the panel (R112: `x < 128`, `y < 64`). -/
def onPanel (x y : Byte) : Bool := x.toNat < Config.width && y.toNat < Config.height

/-- `pixel(x, y)` of a buffer (R22): bit `y % 8` of the byte at page `y / 8`, column `x`. -/
def pixel (m : Memory) (x y : Byte) : Bool := (Memory.read m (linear (pageOf y) x.toNat)).getLsbD (bitOf y)

/-- The colour of a pixel bit (D20): 1 is ON. -/
def colorAt (m : Memory) (x y : Byte) : Color := if pixel m x y then .on else .off

/-- The row of page `p`: its 128 bytes in ascending column order (20_memory.md R45 (b)). -/
def pageRow (m : Memory) (p : Nat) : List Byte :=
  (List.range Config.width).map fun c => Memory.read m (linear p c)

end Sys2Proof.Machine
end

