-- ==== Sys2Proof/Machine/Flags.lean ====
section
/-! DEFINITION. The checks that end an operation with `InvalidArgument` (60_exceptions.md R163), the result word
(30_encoding.md R70) and the status outputs (10_state.md R29). The block has no arithmetic flags (R32); its one
flag is `ctx.initialized`. -/

namespace Sys2Proof.Machine

open Sys2Proof

/-! ## The checks of R163, true where the operation may go on -/

/-- `INIT`'s argument check: the three pins (40_context_bringup.md R92). -/
def pinsOk (s : State) : Bool :=
  s.pins.transportPresent && s.pins.timingPresent && s.pins.transportCanWrite

/-- The handle check of `DEINIT`, `POWER_ON`, `POWER_OFF`: the bound bits, not the pins (R99). -/
def handlesOk (s : State) : Bool := s.tpBound && s.tmBound

/-- The precondition of the data-plane operations (41_buffer_ops.md R110, 43_flush.md R147). -/
def contextOk (s : State) : Bool := s.initialized

/-- Every cause of `InvalidArgument`, by operation (R163). -/
def argsOk (op : Operation) (s : State) : Bool :=
  match op with
  | .init _ _ => pinsOk s
  | .deinit => handlesOk s
  | .powerOn => handlesOk s
  | .powerOff => handlesOk s
  | .clear => contextOk s
  | .setPixel x y _ => contextOk s && onPanel x y
  | .updateDisplay => contextOk s

/-! ## The result word (R70) -/

/-- The `kind` field. -/
def Result.kind (r : Result) : BitVec 2 :=
  match r with
  | .ok => 0
  | .invalidArgument => 1
  | .ioError _ => 2

/-- The `io_err` field: the transport's value, copied unchanged. -/
def Result.ioErr (r : Result) : Byte :=
  match r with
  | .ok => 0
  | .invalidArgument => 0
  | .ioError e => e

/-- The result word: six zeros, `kind`, `io_err`. -/
def Result.word (r : Result) : Word16 := 0#6 ++ r.kind ++ r.ioErr

/-! ## Outputs -/

/-- Whether an operation is in progress. -/
def Seq.isIdle (q : Seq) : Bool :=
  match q with
  | .idle => true
  | .run _ _ => false

/-- `cmd_ready` (R63): equal to `seq = IDLE`. -/
def cmdReady (s : State) : Bool := s.seq.isIdle
/-- S0 `busy` (R29). -/
def statusBusy (s : State) : Bool := !s.seq.isIdle
/-- S1 `initialized`. -/
def statusInitialized (s : State) : Bool := s.initialized
/-- S2 `result_kind`. -/
def statusResultKind (s : State) : BitVec 2 := s.lastResult.kind
/-- S3 `result_io_err`. -/
def statusResultIoErr (s : State) : Byte := s.lastResult.ioErr
/-- S4 `bus_addr`. -/
def statusBusAddr (s : State) : BusAddr := s.busAddr
/-- S5 `bound` = `{ctx.tm_bound, ctx.tp_bound}`. -/
def statusBound (s : State) : BitVec 2 := BitVec.ofBool s.tmBound ++ BitVec.ofBool s.tpBound

end Sys2Proof.Machine
end

