-- ==== Sys2Proof/WellFormed.lean ====
section
/-! DEFINITION. Well-formed instructions. -/

namespace Sys2Proof

/-- The check of well-formedness. The operand types leave nothing to check: every operand of a host command, a result
word or a selector is legal as an operand (30_encoding.md R66, R67, R70: an out-of-range pixel decodes and then fails
its own check), and a panel command takes any parameter bytes (60_exceptions.md R181: `a`, `b`, without a bound). -/
def WellFormed (i : Instr) : Bool :=
  match i with
  | .init _ _ => true
  | .deinit => true
  | .powerOn => true
  | .powerOff => true
  | .clear => true
  | .setPixel _ _ _ => true
  | .updateDisplay => true
  | .resultOk => true
  | .resultInvalidArgument => true
  | .resultIoError _ => true
  | .selCmd => true
  | .selData => true
  | .panelDisplayOff => true
  | .panelClockDiv _ => true
  | .panelMuxRatio _ => true
  | .panelDisplayOffset _ => true
  | .panelSegRemap => true
  | .panelComScanRev => true
  | .panelComPins _ => true
  | .panelContrast _ => true
  | .panelPrecharge _ => true
  | .panelVcomh _ => true
  | .panelResumeRam => true
  | .panelNormalPolarity => true
  | .panelScrollOff => true
  | .panelAddrMode _ => true
  | .panelChargePump _ => true
  | .panelDisplayOn => true
  | .panelSetColRange _ _ => true
  | .panelSetPageRange _ _ => true

end Sys2Proof
end

