-- ==== Sys2Proof/Decode.lean ====
section
/-! DEFINITION. Decoding and encoding (30_encoding.md). Decoding is total on any bytes and rejects by name; the
decoder of each layer is separate (R82: "A decoder of command words needs only the seven (match, mask) pairs"). -/

namespace Sys2Proof

/-- Why bytes are no instruction. -/
inductive Reject where
  /-- A command word that matches no row (R69). The block answers it with `InvalidArgument`. -/
  | illegalCommandWord
  /-- A result word of `kind` 3, with reserved bits set, or with an error value beside `kind` 0 or 1 (R70:
  "never produced"). -/
  | resultNeverProduced
  /-- A selector other than 0x00 and 0x40 (R73: "No other value is ever sent"). -/
  | selectorNeverSent
  /-- A command-channel byte that begins no command of the table. -/
  | unknownPanelByte
  /-- The instruction's bytes have not all come. -/
  | truncated
  deriving DecidableEq, Repr

/-- What the decoder says of a list of bytes: an instruction and the bytes after it, or a rejection. -/
inductive Decoded where
  | instr (i : Instr) (rest : List Byte)
  | reject (why : Reject)
  deriving DecidableEq, Repr

/-! ## The words of each layer as bytes. DESIGN CHOICE, log 1: least significant byte first (R45: no order is fixed). -/

/-- The bytes of a command word, least significant first. -/
def bytesOfWord32 (w : Word32) : List Byte :=
  [w.extractLsb' 0 8, w.extractLsb' 8 8, w.extractLsb' 16 8, w.extractLsb' 24 8]

/-- The bytes of a result word, least significant first. -/
def bytesOfWord16 (w : Word16) : List Byte :=
  [w.extractLsb' 0 8, w.extractLsb' 8 8]

/-- The colour in bit 16 of a `SET_PIXEL` word (R67): 1 = ON, 0 = OFF. -/
def colorOfBit (b : Bool) : Color := if b then .on else .off

/-- The bit of a colour (R67). -/
def bitOfColor (c : Color) : BitVec 1 :=
  match c with
  | .on => 1
  | .off => 0

/-! ## Decoding -/

/-- A word matches a row when `(cmd & mask) = match` (R69). -/
def matchesRow (w mask pattern : Word32) : Bool := w &&& mask == pattern

/-- The decoder of command words: the seven (match, mask) pairs of R66 to R68. -/
def decodeCommand (w : Word32) : Option Instr :=
  if matchesRow w Config.initMask Config.initMatch then
    some (.init (w.extractLsb' 0 Config.busAddrW) (w.extractLsb' 8 Config.handleW))
  else if w == Config.deinitWord then some .deinit
  else if w == Config.powerOnWord then some .powerOn
  else if w == Config.powerOffWord then some .powerOff
  else if w == Config.clearWord then some .clear
  else if matchesRow w Config.setPixelMask Config.setPixelMatch then
    some (.setPixel (w.extractLsb' 0 8) (w.extractLsb' 8 8) (colorOfBit (w.getLsbD 16)))
  else if w == Config.updateDisplayWord then some .updateDisplay
  else none

/-- The decoder of result words (R70). -/
def decodeResult (w : Word16) : Option Instr :=
  if w == 0x0000 then some .resultOk
  else if w == 0x0100 then some .resultInvalidArgument
  else if w &&& 0xFF00 == 0x0200 then some (.resultIoError (w.extractLsb' 0 8))
  else none

/-- The decoder of selectors (R73). -/
def decodeSelector (b : Byte) : Option Instr :=
  if b == Config.selCmd then some .selCmd
  else if b == Config.selData then some .selData
  else none

/-- A panel command with one parameter byte: the command byte first, then its parameter (R76). -/
def decodeParam (f : Byte → Instr) (bs : List Byte) : Decoded :=
  match bs with
  | [] => .reject .truncated
  | v :: rest => .instr (f v) rest

/-- A panel command with two parameter bytes, a range, start before end (R77). -/
def decodeRange (f : Byte → Byte → Instr) (bs : List Byte) : Decoded :=
  match bs with
  | first :: last :: rest => .instr (f first last) rest
  | _ => .reject .truncated

/-- The parameters of the panel command that `op` begins (R77 to R79). -/
def decodePanelOp (op : Byte) (rest : List Byte) : Decoded :=
  if op == Config.cmdDisplayOff then .instr .panelDisplayOff rest
  else if op == Config.cmdClockDiv then decodeParam .panelClockDiv rest
  else if op == Config.cmdMuxRatio then decodeParam .panelMuxRatio rest
  else if op == Config.cmdDisplayOffset then decodeParam .panelDisplayOffset rest
  else if op == Config.cmdSegRemap then .instr .panelSegRemap rest
  else if op == Config.cmdComScanRev then .instr .panelComScanRev rest
  else if op == Config.cmdComPins then decodeParam .panelComPins rest
  else if op == Config.cmdContrast then decodeParam .panelContrast rest
  else if op == Config.cmdPrecharge then decodeParam .panelPrecharge rest
  else if op == Config.cmdVcomh then decodeParam .panelVcomh rest
  else if op == Config.cmdResumeRam then .instr .panelResumeRam rest
  else if op == Config.cmdNormalPolarity then .instr .panelNormalPolarity rest
  else if op == Config.cmdScrollOff then .instr .panelScrollOff rest
  else if op == Config.cmdAddrMode then decodeParam .panelAddrMode rest
  else if op == Config.cmdChargePump then decodeParam .panelChargePump rest
  else if op == Config.cmdDisplayOn then .instr .panelDisplayOn rest
  else if op == Config.cmdSetColRange then decodeRange .panelSetColRange rest
  else if op == Config.cmdSetPageRange then decodeRange .panelSetPageRange rest
  else .reject .unknownPanelByte

/-- The decoder of the panel's command channel: one command, and the bytes after it. -/
def decodePanel (bs : List Byte) : Decoded :=
  match bs with
  | [] => .reject .truncated
  | op :: rest => decodePanelOp op rest

/-- An instruction, or the named rejection of a word of its layer. -/
def decodedOr (why : Reject) (rest : List Byte) (i : Option Instr) : Decoded :=
  match i with
  | some i => .instr i rest
  | none => .reject why

/-- Decoding on any layer, on any bytes. -/
def decode (l : Layer) (bs : List Byte) : Decoded :=
  match l, bs with
  | .hostCommand, b0 :: b1 :: b2 :: b3 :: rest =>
    decodedOr .illegalCommandWord rest (decodeCommand (b3 ++ b2 ++ b1 ++ b0))
  | .hostCommand, _ => .reject .truncated
  | .hostResult, b0 :: b1 :: rest => decodedOr .resultNeverProduced rest (decodeResult (b1 ++ b0))
  | .hostResult, _ => .reject .truncated
  | .transportSelector, b :: rest => decodedOr .selectorNeverSent rest (decodeSelector b)
  | .transportSelector, [] => .reject .truncated
  | .panelCommand, bs => decodePanel bs

/-! ## Encoding, from the same tables -/

/-- The layer an instruction stands on. -/
def layerOf (i : Instr) : Layer :=
  match i with
  | .init _ _ => .hostCommand
  | .deinit => .hostCommand
  | .powerOn => .hostCommand
  | .powerOff => .hostCommand
  | .clear => .hostCommand
  | .setPixel _ _ _ => .hostCommand
  | .updateDisplay => .hostCommand
  | .resultOk => .hostResult
  | .resultInvalidArgument => .hostResult
  | .resultIoError _ => .hostResult
  | .selCmd => .transportSelector
  | .selData => .transportSelector
  | .panelDisplayOff => .panelCommand
  | .panelClockDiv _ => .panelCommand
  | .panelMuxRatio _ => .panelCommand
  | .panelDisplayOffset _ => .panelCommand
  | .panelSegRemap => .panelCommand
  | .panelComScanRev => .panelCommand
  | .panelComPins _ => .panelCommand
  | .panelContrast _ => .panelCommand
  | .panelPrecharge _ => .panelCommand
  | .panelVcomh _ => .panelCommand
  | .panelResumeRam => .panelCommand
  | .panelNormalPolarity => .panelCommand
  | .panelScrollOff => .panelCommand
  | .panelAddrMode _ => .panelCommand
  | .panelChargePump _ => .panelCommand
  | .panelDisplayOn => .panelCommand
  | .panelSetColRange _ _ => .panelCommand
  | .panelSetPageRange _ _ => .panelCommand

/-- The `INIT` word (R66): op 0x1, reserved zeros, handle, reserved zero, address. -/
def initWord (a : BusAddr) (h : BusHandle) : Word32 := 0x1#4 ++ 0x000#12 ++ h ++ 0#1 ++ a

/-- The `SET_PIXEL` word (R67): op 0x6, reserved zeros, colour, `y`, `x`. -/
def setPixelWord (x y : Byte) (c : Color) : Word32 := 0x6#4 ++ 0x000#11 ++ bitOfColor c ++ y ++ x

/-- The result word of `IoError(e)` (R70): 0x0200 + `e`. -/
def ioErrorWord (e : IoErr) : Word16 := 0x02#8 ++ e

/-- The bytes of an instruction on its layer. -/
def encode (i : Instr) : List Byte :=
  match i with
  | .init a h => bytesOfWord32 (initWord a h)
  | .deinit => bytesOfWord32 Config.deinitWord
  | .powerOn => bytesOfWord32 Config.powerOnWord
  | .powerOff => bytesOfWord32 Config.powerOffWord
  | .clear => bytesOfWord32 Config.clearWord
  | .setPixel x y c => bytesOfWord32 (setPixelWord x y c)
  | .updateDisplay => bytesOfWord32 Config.updateDisplayWord
  | .resultOk => bytesOfWord16 0x0000
  | .resultInvalidArgument => bytesOfWord16 0x0100
  | .resultIoError e => bytesOfWord16 (ioErrorWord e)
  | .selCmd => [Config.selCmd]
  | .selData => [Config.selData]
  | .panelDisplayOff => [Config.cmdDisplayOff]
  | .panelClockDiv v => [Config.cmdClockDiv, v]
  | .panelMuxRatio v => [Config.cmdMuxRatio, v]
  | .panelDisplayOffset v => [Config.cmdDisplayOffset, v]
  | .panelSegRemap => [Config.cmdSegRemap]
  | .panelComScanRev => [Config.cmdComScanRev]
  | .panelComPins v => [Config.cmdComPins, v]
  | .panelContrast v => [Config.cmdContrast, v]
  | .panelPrecharge v => [Config.cmdPrecharge, v]
  | .panelVcomh v => [Config.cmdVcomh, v]
  | .panelResumeRam => [Config.cmdResumeRam]
  | .panelNormalPolarity => [Config.cmdNormalPolarity]
  | .panelScrollOff => [Config.cmdScrollOff]
  | .panelAddrMode v => [Config.cmdAddrMode, v]
  | .panelChargePump v => [Config.cmdChargePump, v]
  | .panelDisplayOn => [Config.cmdDisplayOn]
  | .panelSetColRange a b => [Config.cmdSetColRange, a, b]
  | .panelSetPageRange a b => [Config.cmdSetPageRange, a, b]

/-! ## The table's words, as the host's questions give them -/

/-- The layer of a table row of `nbits` bits whose word is `w`: 32 bits are a command word, 16 a result word, and
of the rows of 8 bits the values 0x00 and 0x40 are the selectors and the others panel command bytes. -/
def tableLayer (nbits w : Nat) : Option Layer :=
  if nbits = 32 then some .hostCommand
  else if nbits = 16 then some .hostResult
  else if nbits = 8 then
    if w = Config.selCmd.toNat ∨ w = Config.selData.toNat then some .transportSelector else some .panelCommand
  else none

/-- How many bytes follow the first byte of a row's instruction: only panel commands have bytes the table gives
no bits to (R76, `parameter_bytes`). -/
def tableParams (l : Layer) (w : Nat) : Nat :=
  match l with
  | .panelCommand =>
    match decodePanelOp (BitVec.ofNat 8 w) [] with
    | .instr _ _ => 0
    | .reject _ =>
      match decodePanelOp (BitVec.ofNat 8 w) [0] with
      | .instr _ _ => 1
      | .reject .truncated => 2
      | .reject _ => 0
  | .hostCommand => 0
  | .hostResult => 0
  | .transportSelector => 0

/-- The lowest `n` bytes of a number, least significant first. -/
def bytesOfNat (n w : Nat) : List Byte :=
  match n with
  | 0 => []
  | n + 1 => BitVec.ofNat 8 w :: bytesOfNat n (w / 256)

/-- The instruction's bytes: the word's own, then zeros for the parameter bytes. -/
def tableBytes (l : Layer) (nbits w : Nat) : List Byte :=
  bytesOfNat (nbits / 8) w ++ List.replicate (tableParams l w) 0

/-- The instruction the decoder reads from a table row's word, parameter bytes zero. -/
def decodeTableWord (nbits w : Nat) : Option Instr :=
  if w < 2 ^ nbits then
    match tableLayer nbits w with
    | some l =>
      match decode l (tableBytes l nbits w) with
      | .instr i _ => some i
      | .reject _ => none
    | none => none
  else none

end Sys2Proof
end

