-- ==== Sys2Proof/Machine/Panel.lean ====
section
/-! DEFINITION. The panel controller as a consumer of what it is sent (60_exceptions.md R181, informative; log 11).
No rule of the block depends on it. -/

namespace Sys2Proof.Machine

open Sys2Proof

/-! ## What each command does -/

/-- `CMD_DISPLAY_ON`, `CMD_DISPLAY_OFF` (R181). The panel keeps its display memory and its settings while it is off.
PRESUMED, log 30: R180 says that the source does not state what it keeps; unsafe. -/
def Panel.setOn (b : Bool) (q : Panel) : Panel := { q with on := b }
/-- The column range, of any two bytes; the cursor goes to its start (R181). -/
def Panel.setColRange (first last : Byte) (q : Panel) : Panel := { q with colLo := first, colHi := last, col := first }
/-- The page range, of any two bytes; the cursor goes to its start (R181). -/
def Panel.setPageRange (first last : Byte) (q : Panel) : Panel := { q with pageLo := first, pageHi := last, page := first }
/-- Clock-divider select (30_encoding.md R78, group 2). -/
def Panel.setClockDiv (v : Byte) (q : Panel) : Panel := { q with clockDiv := v }
/-- Multiplex ratio (R78, group 3). -/
def Panel.setMuxRatio (v : Byte) (q : Panel) : Panel := { q with muxRatio := v }
/-- Display offset (R78, group 4). -/
def Panel.setDisplayOffset (v : Byte) (q : Panel) : Panel := { q with displayOffset := v }
/-- Segment-remap enabled (R78, group 5). -/
def Panel.enableSegRemap (q : Panel) : Panel := { q with segRemap := true }
/-- COM scan direction reversed (R78, group 6). -/
def Panel.reverseComScan (q : Panel) : Panel := { q with comScanReversed := true }
/-- COM pin configuration (R78, group 7). -/
def Panel.setComPins (v : Byte) (q : Panel) : Panel := { q with comPins := v }
/-- Contrast level (R78, group 8). -/
def Panel.setContrast (v : Byte) (q : Panel) : Panel := { q with contrast := v }
/-- Pre-charge period (R78, group 9). -/
def Panel.setPrecharge (v : Byte) (q : Panel) : Panel := { q with precharge := v }
/-- VCOMH deselect level (R78, group 10). -/
def Panel.setVcomh (v : Byte) (q : Panel) : Panel := { q with vcomh := v }
/-- Resume-from-RAM mode (R78, group 11). -/
def Panel.resumeRam (q : Panel) : Panel := { q with followRam := true }
/-- Normal (non-inverted) polarity (R78, group 12). -/
def Panel.setNormal (q : Panel) : Panel := { q with normalPolarity := true }
/-- Deactivate any hardware scroll (R78, group 13). -/
def Panel.stopScroll (q : Panel) : Panel := { q with scrolling := false }
/-- Addressing mode (R78, group 14). -/
def Panel.setAddrMode (v : Byte) (q : Panel) : Panel := { q with addrMode := v }
/-- Charge pump (R78, group 15). -/
def Panel.setChargePump (v : Byte) (q : Panel) : Panel := { q with chargePump := v }

/-- What the panel does on a complete command; an instruction of another layer is none of its commands. -/
def Panel.effect (i : Instr) (q : Panel) : Panel :=
  match i with
  | .init _ _ => q
  | .deinit => q
  | .powerOn => q
  | .powerOff => q
  | .clear => q
  | .setPixel _ _ _ => q
  | .updateDisplay => q
  | .resultOk => q
  | .resultInvalidArgument => q
  | .resultIoError _ => q
  | .selCmd => q
  | .selData => q
  | .panelDisplayOff => q.setOn false
  | .panelClockDiv v => q.setClockDiv v
  | .panelMuxRatio v => q.setMuxRatio v
  | .panelDisplayOffset v => q.setDisplayOffset v
  | .panelSegRemap => q.enableSegRemap
  | .panelComScanRev => q.reverseComScan
  | .panelComPins v => q.setComPins v
  | .panelContrast v => q.setContrast v
  | .panelPrecharge v => q.setPrecharge v
  | .panelVcomh v => q.setVcomh v
  | .panelResumeRam => q.resumeRam
  | .panelNormalPolarity => q.setNormal
  | .panelScrollOff => q.stopScroll
  | .panelAddrMode v => q.setAddrMode v
  | .panelChargePump v => q.setChargePump v
  | .panelDisplayOn => q.setOn true
  | .panelSetColRange a b => q.setColRange a b
  | .panelSetPageRange a b => q.setPageRange a b

/-! ## Where no source says what the panel does: free values -/

/-- The unfinished command a panel in an unknown state holds: any list of bytes that is an unfinished command. -/
def unfinished (bs : List Byte) : List Byte :=
  match decodePanel bs with
  | .reject .truncated => bs
  | .reject _ => []
  | .instr _ _ => []

/-- A panel about which nothing is known (logs 16 and 17): every register a free value, nothing known of its
display memory. -/
def Panel.scramble (q : Panel) : Panel where
  ram := []
  colLo := Config.freePanelByte q.draws 0
  colHi := Config.freePanelByte q.draws 1
  pageLo := Config.freePanelByte q.draws 2
  pageHi := Config.freePanelByte q.draws 3
  col := Config.freePanelByte q.draws 4
  page := Config.freePanelByte q.draws 5
  on := Config.freePanelBit q.draws 0
  clockDiv := Config.freePanelByte q.draws 6
  muxRatio := Config.freePanelByte q.draws 7
  displayOffset := Config.freePanelByte q.draws 8
  segRemap := Config.freePanelBit q.draws 1
  comScanReversed := Config.freePanelBit q.draws 2
  comPins := Config.freePanelByte q.draws 9
  contrast := Config.freePanelByte q.draws 10
  precharge := Config.freePanelByte q.draws 11
  vcomh := Config.freePanelByte q.draws 12
  followRam := Config.freePanelBit q.draws 3
  normalPolarity := Config.freePanelBit q.draws 4
  scrolling := Config.freePanelBit q.draws 5
  addrMode := Config.freePanelByte q.draws 13
  chargePump := Config.freePanelByte q.draws 14
  pending := unfinished (Config.freePending q.draws)
  draws := q.draws + 1

/-! ## Interruption and power -/

/-- An operation that sent to the panel has been cut short: by a failed write, or by a reset. A panel left with an
unfinished command keeps it or resynchronises, dropping it (70_reset_and_hazards.md R203, U4: "any value"; log 33). -/
def Panel.interrupted (q : Panel) : Panel :=
  match q.pending with
  | [] => q
  | _ :: _ => { q with pending := if Config.panelResyncs q.draws then [] else q.pending, draws := q.draws + 1 }

/-- The panel alone loses its power and comes back (70_reset_and_hazards.md R204): its registers as at power-on
(log 13), nothing known of its display memory. The counter of free values goes on (log 34). -/
def Panel.powerCycle (q : Panel) : Panel := { Panel.reset with draws := q.draws }

/-! ## Bytes on the command channel -/

/-- The bytes of the command the panel has received so far. A complete command acts; an unfinished one is kept, and
the bytes that follow are taken as its parameters (G10; R203 for a torn one, see `Panel.interrupted`); a byte that
begins no command leaves the panel unknown (log 16). -/
def Panel.received (bs : List Byte) (q : Panel) : Panel :=
  match decodePanel bs with
  | .instr i _ => Panel.effect i { q with pending := [] }
  | .reject .truncated => { q with pending := bs }
  | .reject _ => q.scramble

/-- One more byte on the command channel. -/
def Panel.cmdByte (q : Panel) (b : Byte) : Panel := q.received (q.pending ++ [b])

/-! ## Bytes on the data channel -/

/-- The linear address of the cursor. -/
def Panel.cursor (q : Panel) : Nat := linear q.page.toNat q.col.toNat

/-- Whether the cursor stands on a byte of the display memory. -/
def Panel.cursorOnPanel (q : Panel) : Bool := q.page.toNat < Config.pages && q.col.toNat < Config.width

/-- The cursor after a data byte in horizontal addressing mode (R181). -/
def Panel.advance (q : Panel) : Panel :=
  if q.col = q.colHi then
    { q with col := q.colLo, page := if q.page = q.pageHi then q.pageLo else q.page + 1 }
  else { q with col := q.col + 1 }

/-- `ram[page][col] <- v` (R181). Outside the display memory no source says what is stored, so nothing of the
memory stays known (log 17). -/
def Panel.store (v : Byte) (q : Panel) : Panel :=
  if q.cursorOnPanel then { q with ram := Memory.insert q.ram q.cursor v } else { q with ram := [] }

/-- After a data byte outside horizontal addressing mode, which no source describes (R181 gives that mode alone):
the cursor is free and nothing of the memory stays known (log 17). -/
def Panel.lostCursor (q : Panel) : Panel :=
  { q with
    ram := []
    col := Config.freePanelByte q.draws 15
    page := Config.freePanelByte q.draws 16
    draws := q.draws + 1 }

/-- One data byte (R181). -/
def Panel.dataByte (q : Panel) (v : Byte) : Panel :=
  if q.addrMode = Config.addrModeHorizontal then (q.store v).advance else q.lostCursor

/-! ## Whole writes -/

/-- A write the panel took: its bytes in order, on the selected channel (R49). -/
def Panel.take (sel : Selector) (bytes : List Byte) (q : Panel) : Panel :=
  match sel with
  | .cmd => bytes.foldl Panel.cmdByte q
  | .data => bytes.foldl Panel.dataByte q

/-- A data byte of which only the place is known: the byte there is not known any more. -/
def Panel.smearByte (q : Panel) (_v : Byte) : Panel :=
  if q.addrMode = Config.addrModeHorizontal then
    if q.cursorOnPanel then ({ q with ram := Memory.erase q.ram q.cursor }).advance else ({ q with ram := [] }).advance
  else q.lostCursor

/-- One command byte of a failed write: the panel took it or did not (U4, log 15). -/
def Panel.tornCmdByte (q : Panel) (b : Byte) : Panel :=
  if Config.panelTookByte q.draws then Panel.cmdByte { q with draws := q.draws + 1 } b
  else { q with draws := q.draws + 1 }

/-- A failed data burst (U4, log 15): any prefix may have moved the cursor, and every byte the whole burst would
have stored is not known any more ("to be safe, any content in that page"). -/
def Panel.tornBurst (bytes : List Byte) (q : Panel) : Panel :=
  let moved := (bytes.take (Config.burstPrefix q.draws)).foldl Panel.smearByte q
  { moved with ram := (bytes.foldl Panel.smearByte q).ram, draws := moved.draws + 1 }

/-- A write that was answered with an error, or abandoned by a reset: the panel may have taken any part of it
(R49, U4, R192), and may then drop an unfinished command (R203). -/
def Panel.torn (sel : Selector) (bytes : List Byte) (q : Panel) : Panel :=
  match sel with
  | .cmd => (bytes.foldl Panel.tornCmdByte q).interrupted
  | .data => (q.tornBurst bytes).interrupted

/-! ## What the panel shows -/

/-- The byte the panel is known to hold at page `p`, column `c`. -/
def Panel.byteAt (q : Panel) (p c : Nat) : Option Byte := Memory.lookup q.ram (linear p c)

/-- Whether the panel's geometry and drive are those R181's sentence of the glass is given for: "the bring-up's
segment-remap and COM-scan settings"; and, since a lit pixel is a 1 bit of the memory only then, the RAM shown and in
normal polarity (30_encoding.md R78, groups 11 and 12; log 11). -/
def Panel.bringupView (q : Panel) : Bool := q.segRemap && q.comScanReversed && q.followRam && q.normalPolarity

/-- Whether pixel `(x, y)` of the glass is lit (R181): no pixel while the display is off; unknown under other settings
than the bring-up's, and where the display memory is. -/
def Panel.lit (q : Panel) (x y : Byte) : Option Bool :=
  if q.on then
    if q.bringupView then (q.byteAt (pageOf y) x.toNat).map fun v => v.getLsbD (bitOf y) else none
  else some false

/-- The panel's invariant: its display memory in order and inside the panel, and its unfinished command one that
more bytes can finish. -/
def Panel.wf (q : Panel) : Bool :=
  Memory.rising q.ram && Memory.inSpace q.ram && (decodePanel q.pending == .reject .truncated)

end Sys2Proof.Machine
end

