-- ==== Sys2Proof/Machine/Ops.lean ====
section
/-! DEFINITION. The named operations over the state: register and buffer access, ending an operation with a result
(the counterpart of taking an exception and returning from one, 60_exceptions.md R167, R168), the transport write
and the delay (20_memory.md R47, R175), reset (70_reset_and_hazards.md R190, R192). -/

namespace Sys2Proof.Machine

open Sys2Proof

/-! ## The buffer (00_scope.md R10: `fb[p][c]`) -/

/-- `fb[p][c]`, where the byte exists. -/
def fbRead (s : State) (p c : Nat) : Option Byte :=
  if p < Config.pages && c < Config.width then some (Memory.read s.fb (linear p c)) else none

/-- The state with another buffer. -/
def setFb (m : Memory) (s : State) : State := { s with fb := m }

/-- `fb[p][c] <- v`, where the byte exists. -/
def fbWrite (s : State) (p c : Nat) (v : Byte) : Option State :=
  if p < Config.pages && c < Config.width then some (setFb (Memory.write s.fb (linear p c) v) s) else none

/-- All 1024 bytes to 0x00: the canonical form of an all-zero buffer lists nothing. -/
def zeroFill (s : State) : State := setFb [] s

/-! ## The context registers -/

/-- `INIT` action 0 (40_context_bringup.md R93). -/
def bindContext (a : BusAddr) (h : BusHandle) (s : State) : State :=
  { s with tpBound := true, tmBound := true, busHandle := h, busAddr := a, initialized := false }

/-- `ctx.initialized <- b`. -/
def setInitialized (b : Bool) (s : State) : State := { s with initialized := b }

/-- `seq <- q` (R10). -/
def setSeq (q : Seq) (s : State) : State := { s with seq := q }

/-- What the last action of an operation does when it completes: `INIT` sets `ctx.initialized` (R91, R93). -/
def markDone (op : Operation) (s : State) : State :=
  match op with
  | .init _ _ => setInitialized true s
  | .deinit => s
  | .powerOn => s
  | .powerOff => s
  | .clear => s
  | .setPixel _ _ _ => s
  | .updateDisplay => s

/-! ## Ending an operation -/

/-- An operation ends with a result: `last_result` takes it, the sequencer returns to `IDLE`, the result word goes
out on the result port (R28, R63, R167). Nothing is saved, no mode changes, no vector is taken. -/
def finish (r : Result) (s : State) : State :=
  { s with lastResult := r, seq := .idle, request := none, responses := s.responses ++ [r.word] }

/-- `raise InvalidArgument` (R161): nothing else has changed. -/
def raiseInvalidArgument (s : State) : State := finish .invalidArgument s

/-- `raise IoError(e)` (R162): what was written before stays. -/
def raiseIoError (e : IoErr) (s : State) : State := finish (.ioError e) s

/-- `return OK` (R10). -/
def returnOk (s : State) : State := finish .ok s

/-! ## Requests to the collaborators -/

/-- The trace item of a request (R11, R72): a write carries the context's handle and address, unshifted (R24). -/
def eventOf (r : Request) (s : State) : Event :=
  match r with
  | .write sel bytes => .write s.busHandle s.busAddr sel bytes
  | .delay ms => .delay ms

/-- Issue a request: `T` takes it, and the block waits for its answer (R47 (1), R175). -/
def issue (r : Request) (s : State) : State :=
  { s with trace := s.trace ++ [eventOf r s], request := some r }

/-- Take the transport's answer to the request (R47 (2)). -/
def takeAnswer (rest : List Answer) (s : State) : State := { s with answers := rest, request := none }

/-- Take the timing provider's completion (R175). -/
def takeDelay (n : Nat) (s : State) : State := { s with delaysDone := n, request := none }

/-- The state with another panel. -/
def setPanel (q : Panel) (s : State) : State := { s with panel := q }

/-- The transaction on the transport is of this selector (R43). -/
def setChannel (sel : Selector) (s : State) : State := { s with channel := sel }

/-- A write the transport answered `OK` has reached the panel (R49), at this moment (log 35). DESIGN CHOICE,
log 28: the spec is silent on a handle or an address that is not the panel's own; the one panel of the model takes every
such write; unsafe. -/
def deliver (sel : Selector) (bytes : List Byte) (s : State) : State :=
  setPanel (s.panel.take sel bytes) (setChannel sel s)

/-- A write the transport answered with an error, or that a reset abandoned: what reached the panel is not known
(R49, 93_implementation_defined.md U4; log 15). -/
def tear (sel : Selector) (bytes : List Byte) (s : State) : State :=
  setPanel (s.panel.torn sel bytes) (setChannel sel s)

/-! ## The ports and reset -/

/-- What stands offered. -/
def setPort (p : List Offer) (s : State) : State := { s with port := p }

/-- The block's state at its reset values (10_state.md R34); nothing is sent, no result is produced (R190, R192). -/
def clearBlock (s : State) : State :=
  { s with
    fb := []
    initialized := false
    busAddr := 0
    busHandle := 0
    tpBound := false
    tmBound := false
    seq := .idle
    lastResult := .ok
    request := none }

/-- The operation in progress is abandoned (R192). A write issued and not answered is left to the transport: what
reaches the panel is not known (log 18). A delay issued and not completed is forgotten by the block; DESIGN CHOICE,
log 31: the spec is silent on it, and its completion, should it come, is one of `delaysDone` like any other; safe. The
panel is not reset (R193). -/
def abandon (s : State) : State :=
  match s.seq with
  | .idle => s
  | .run _ _ =>
    match s.request with
    | some (.write sel bytes) => tear sel bytes s
    | some (.delay _) => setPanel s.panel.interrupted s
    | none => setPanel s.panel.interrupted s

/-- `rst` asserted (R190): the operation in progress is abandoned, every piece of the block has its reset value. What
the collaborators have answered stays (logs 18, 31), and so does what stands offered (log 27). -/
def applyReset (s : State) : State := clearBlock (abandon s)

end Sys2Proof.Machine
end

