-- ==== Sys2Proof/Machine/Sequencer.lean ====
section
/-! DEFINITION. The sequencer (10_state.md R27): each operation is a fixed list of actions, and `seq` indexes it.
`seqStep` is one action (43_flush.md R149 is its instance for the flush); `runOperation` is the atomic big step R27
also allows, which stops where a collaborator has not answered (60_exceptions.md R177). -/

namespace Sys2Proof.Machine

open Sys2Proof

/-- The seven actions of page `n` (43_flush.md R142). -/
def pageActions (p : Config.Params) (n : Nat) : List Action := (Config.cursorSet p n).map Action.send ++ [.burst n]

/-- The action list of each operation (R93, R96, R97, R98, R111, R112, R149), for any parameters (R93: "in general
`4 + n`"). -/
def actions (p : Config.Params) (op : Operation) : List Action :=
  match op with
  | .init a h => [.bind a h] ++ p.bringup.flatten.map Action.send ++
      [.delay p.settleMs, .zeroFill, .send p.cmdDisplayOn]
  | .deinit => [.unmark, .send p.cmdDisplayOff]
  | .powerOn => [.send p.cmdDisplayOn]
  | .powerOff => [.send p.cmdDisplayOff]
  | .clear => [.zeroFill]
  | .setPixel x y c => [.plot x y c]
  | .updateDisplay => (List.range Config.pages).flatMap (pageActions p)

/-- Action `k` has completed without error: the next action, or the end of the operation with `OK` (R27). -/
def completeAction (op : Operation) (k : Nat) (s : State) : State :=
  if k + 1 < (actions s.params op).length then setSeq (.run op (k + 1)) s else returnOk (markDone op s)

/-- The request of an action, where the action is one (R47, R80, R81). -/
def requestOf (a : Action) (s : State) : Option Request :=
  match a with
  | .bind _ _ => none
  | .unmark => none
  | .send b => some (.write .cmd [b])
  | .delay ms => some (.delay ms)
  | .zeroFill => none
  | .plot _ _ _ => none
  | .burst p => some (.write .data (pageRow s.fb p))

/-- The answer to the request of action `k` is taken, where it has come: `OK` completes the action, `ERR(e)` ends
the operation with `IoError(e)` (R10 `try`). Where it has not come, nothing changes (R177). DESIGN CHOICE, log 35: the
panel takes the whole write at the moment `OK` is taken, since no rule says when during a write it takes its bytes
(R47, R49); unsafe. -/
def settle (op : Operation) (k : Nat) (r : Request) (s : State) : State :=
  match r with
  | .write sel bytes =>
    match s.answers with
    | [] => s
    | .ok :: rest => completeAction op k (deliver sel bytes (takeAnswer rest s))
    | .err e :: rest => raiseIoError e (tear sel bytes (takeAnswer rest s))
  | .delay _ =>
    match s.delaysDone with
    | 0 => s
    | n + 1 => completeAction op k (takeDelay n s)

/-- `SET_PIXEL`'s read-modify-write of one byte (41_buffer_ops.md R112). -/
def plotPixel (x y : Byte) (c : Color) (s : State) : Option State :=
  match fbRead s (pageOf y) x.toNat with
  | some old => fbWrite s (pageOf y) x.toNat (withPixel y c old)
  | none => none

/-- The next state of an access to `fb[p][c]`, or the fault where that byte does not exist (20_memory.md R41). -/
def orNoByte (p c : Nat) (s : Option State) : Host.Outcome State Fault Refusal :=
  match s with
  | some t => .next t
  | none => .fault (.noSuchBufferByte p c)

/-- Action `k` begins. -/
def startAction (op : Operation) (k : Nat) (a : Action) (s : State) : Host.Outcome State Fault Refusal :=
  match a with
  | .bind addr h => .next (completeAction op k (bindContext addr h s))
  | .unmark => .next (completeAction op k (setInitialized false s))
  | .send b => .next (settle op k (.write .cmd [b]) (issue (.write .cmd [b]) s))
  | .delay ms => .next (settle op k (.delay ms) (issue (.delay ms) s))
  | .zeroFill => .next (completeAction op k (zeroFill s))
  | .plot x y c => orNoByte (pageOf y) x.toNat ((plotPixel x y c s).map (completeAction op k))
  | .burst p =>
    .next (settle op k (.write .data (pageRow s.fb p)) (issue (.write .data (pageRow s.fb p)) s))

/-- One step of the sequencer (R27, R149): the action at `seq` begins, or its outstanding request is answered. In
`IDLE` there is no action. -/
def seqStep (s : State) : Host.Outcome State Fault Refusal :=
  match s.seq with
  | .idle => .next s
  | .run op k =>
    match s.request with
    | some r => .next (settle op k r s)
    | none =>
      match (actions s.params op)[k]? with
      | some a => startAction op k a s
      | none => .fault (.noSuchAction op k)

/-- Whether the sequencer cannot go on by itself: it is in `IDLE`, or waits for an answer. -/
def settled (s : State) : Bool := s.seq.isIdle || s.request.isSome

/-- At most `n` steps of the sequencer, stopping where it is settled. -/
def drive (n : Nat) (s : State) : Host.Outcome State Fault Refusal :=
  match n with
  | 0 => .next s
  | n + 1 =>
    match seqStep s with
    | .next t => if settled t then .next t else drive n t
    | .fault f => .fault f
    | .refused r => .refused r

/-- The operation is accepted (40_context_bringup.md R90): its checks are made against the state of this moment. -/
def accept (op : Operation) (s : State) : State :=
  if argsOk op s then setSeq (.run op 0) s else raiseInvalidArgument s

/-- A host operation offered to the block: while another runs it is held off (`cmd_ready` = 0, 30_encoding.md R63,
70_reset_and_hazards.md R199); else it is accepted and runs until it ends or waits for an answer. -/
def runOperation (op : Operation) (s : State) : Host.Outcome State Fault Refusal :=
  match s.seq with
  | .run _ _ => .next s
  | .idle => if settled (accept op s) then .next (accept op s) else drive (actions s.params op).length (accept op s)

end Sys2Proof.Machine
end

