-- ==== Sys2Proof/Machine/Bringup.lean ====
section
/-! DEFINITION. The context and bring-up operations (40_context_bringup.md). -/

namespace Sys2Proof.Machine

open Sys2Proof

/-- `INIT bus_address, bus_handle` (R91 to R95). -/
def execInit (a : BusAddr) (h : BusHandle) (s : State) : Host.Outcome State Fault Refusal :=
  runOperation (.init a h) s

/-- `DEINIT` (R96). -/
def execDeinit (s : State) : Host.Outcome State Fault Refusal := runOperation .deinit s

/-- `POWER_ON` (R97). -/
def execPowerOn (s : State) : Host.Outcome State Fault Refusal := runOperation .powerOn s

/-- `POWER_OFF` (R98). -/
def execPowerOff (s : State) : Host.Outcome State Fault Refusal := runOperation .powerOff s

end Sys2Proof.Machine
end

