-- ==== Sys2Proof/Machine/Buffer.lean ====
section
/-! DEFINITION. The buffer write operations (41_buffer_ops.md). -/

namespace Sys2Proof.Machine

open Sys2Proof

/-- `CLEAR` (R111). -/
def execClear (s : State) : Host.Outcome State Fault Refusal := runOperation .clear s

/-- `SET_PIXEL x, y, color` (R112). -/
def execSetPixel (x y : Byte) (c : Color) (s : State) : Host.Outcome State Fault Refusal :=
  runOperation (.setPixel x y c) s

end Sys2Proof.Machine
end

