-- ==== Sys2Proof/Machine/Flush.lean ====
section
/-! DEFINITION. The flush (43_flush.md). -/

namespace Sys2Proof.Machine

open Sys2Proof

/-- `UPDATE_DISPLAY` (R141). -/
def execUpdateDisplay (s : State) : Host.Outcome State Fault Refusal := runOperation .updateDisplay s

end Sys2Proof.Machine
end

