-- ==== Sys2Proof/Machine/PanelCommands.lean ====
section
/-! DEFINITION. The panel's commands, complete with their parameter bytes (30_encoding.md R77 to R79): what the
panel does on each (60_exceptions.md R181; R33 and R78 for the settings). PRESUMED, log 11; DEDUCED, log 12;
unsafe. -/

namespace Sys2Proof.Machine

open Sys2Proof

/-- `PANEL_DISPLAY_OFF` (R181). -/
def execPanelDisplayOff (s : State) : Host.Outcome State Fault Refusal :=
  .next (setPanel (s.panel.setOn false) s)

/-- `PANEL_CLOCK_DIV` (R78 group 2). -/
def execPanelClockDiv (v : Byte) (s : State) : Host.Outcome State Fault Refusal :=
  .next (setPanel (s.panel.setClockDiv v) s)

/-- `PANEL_MUX_RATIO` (R78 group 3). -/
def execPanelMuxRatio (v : Byte) (s : State) : Host.Outcome State Fault Refusal :=
  .next (setPanel (s.panel.setMuxRatio v) s)

/-- `PANEL_DISPLAY_OFFSET` (R78 group 4). -/
def execPanelDisplayOffset (v : Byte) (s : State) : Host.Outcome State Fault Refusal :=
  .next (setPanel (s.panel.setDisplayOffset v) s)

/-- `PANEL_SEG_REMAP` (R78 group 5). -/
def execPanelSegRemap (s : State) : Host.Outcome State Fault Refusal :=
  .next (setPanel (s.panel.enableSegRemap) s)

/-- `PANEL_COM_SCAN_REV` (R78 group 6). -/
def execPanelComScanRev (s : State) : Host.Outcome State Fault Refusal :=
  .next (setPanel (s.panel.reverseComScan) s)

/-- `PANEL_COM_PINS` (R78 group 7). -/
def execPanelComPins (v : Byte) (s : State) : Host.Outcome State Fault Refusal :=
  .next (setPanel (s.panel.setComPins v) s)

/-- `PANEL_CONTRAST` (R78 group 8). -/
def execPanelContrast (v : Byte) (s : State) : Host.Outcome State Fault Refusal :=
  .next (setPanel (s.panel.setContrast v) s)

/-- `PANEL_PRECHARGE` (R78 group 9). -/
def execPanelPrecharge (v : Byte) (s : State) : Host.Outcome State Fault Refusal :=
  .next (setPanel (s.panel.setPrecharge v) s)

/-- `PANEL_VCOMH` (R78 group 10). -/
def execPanelVcomh (v : Byte) (s : State) : Host.Outcome State Fault Refusal :=
  .next (setPanel (s.panel.setVcomh v) s)

/-- `PANEL_RESUME_RAM` (R78 group 11). -/
def execPanelResumeRam (s : State) : Host.Outcome State Fault Refusal :=
  .next (setPanel (s.panel.resumeRam) s)

/-- `PANEL_NORMAL_POLARITY` (R78 group 12). -/
def execPanelNormalPolarity (s : State) : Host.Outcome State Fault Refusal :=
  .next (setPanel (s.panel.setNormal) s)

/-- `PANEL_SCROLL_OFF` (R78 group 13). -/
def execPanelScrollOff (s : State) : Host.Outcome State Fault Refusal :=
  .next (setPanel (s.panel.stopScroll) s)

/-- `PANEL_ADDR_MODE` (R78 group 14). -/
def execPanelAddrMode (v : Byte) (s : State) : Host.Outcome State Fault Refusal :=
  .next (setPanel (s.panel.setAddrMode v) s)

/-- `PANEL_CHARGE_PUMP` (R78 group 15). -/
def execPanelChargePump (v : Byte) (s : State) : Host.Outcome State Fault Refusal :=
  .next (setPanel (s.panel.setChargePump v) s)

/-- `PANEL_DISPLAY_ON` (R181). -/
def execPanelDisplayOn (s : State) : Host.Outcome State Fault Refusal :=
  .next (setPanel (s.panel.setOn true) s)

/-- `PANEL_SET_COL_RANGE` (R77, R181). -/
def execPanelSetColRange (first last : Byte) (s : State) : Host.Outcome State Fault Refusal :=
  .next (setPanel (s.panel.setColRange first last) s)

/-- `PANEL_SET_PAGE_RANGE` (R77, R181). -/
def execPanelSetPageRange (first last : Byte) (s : State) : Host.Outcome State Fault Refusal :=
  .next (setPanel (s.panel.setPageRange first last) s)

end Sys2Proof.Machine
end

