-- ==== Sys2Proof/Machine/ResultWords.lean ====
section
/-! DEFINITION. The result words (30_encoding.md R70): producing one ends the operation with that result
(10_state.md R28, 60_exceptions.md R167). DEDUCED, log 9. -/

namespace Sys2Proof.Machine

open Sys2Proof

/-- `RESULT_OK`. -/
def execResultOk (s : State) : Host.Outcome State Fault Refusal := .next (returnOk s)

/-- `RESULT_InvalidArgument`. -/
def execResultInvalidArgument (s : State) : Host.Outcome State Fault Refusal := .next (raiseInvalidArgument s)

/-- `RESULT_IoError e`. -/
def execResultIoError (e : IoErr) (s : State) : Host.Outcome State Fault Refusal := .next (raiseIoError e s)

end Sys2Proof.Machine
end

