-- ==== Sys2Proof/Machine/Selectors.lean ====
section
/-! DEFINITION. The selectors of the transport (20_memory.md R43): which of its two logical registers the bytes that
follow go to. DEDUCED, log 10. -/

namespace Sys2Proof.Machine

open Sys2Proof

/-- `SEL_CMD`: bytes that follow are configuration and cursor commands. -/
def execSelCmd (s : State) : Host.Outcome State Fault Refusal := .next (setChannel .cmd s)

/-- `SEL_DATA`: bytes that follow are pixel data. -/
def execSelData (s : State) : Host.Outcome State Fault Refusal := .next (setChannel .data s)

end Sys2Proof.Machine
end

