-- ==== Sys2Proof/Machine/Dispatch.lean ====
section
/-! DEFINITION. One arm per instruction: a direct call of its meaning. -/

namespace Sys2Proof.Machine

open Sys2Proof

def exec (i : Instr) (s : State) : Host.Outcome State Fault Refusal :=
  match i with
  | .init a h => Sys2Proof.Machine.execInit a h s
  | .deinit => Sys2Proof.Machine.execDeinit s
  | .powerOn => Sys2Proof.Machine.execPowerOn s
  | .powerOff => Sys2Proof.Machine.execPowerOff s
  | .clear => Sys2Proof.Machine.execClear s
  | .setPixel x y c => Sys2Proof.Machine.execSetPixel x y c s
  | .updateDisplay => Sys2Proof.Machine.execUpdateDisplay s
  | .resultOk => Sys2Proof.Machine.execResultOk s
  | .resultInvalidArgument => Sys2Proof.Machine.execResultInvalidArgument s
  | .resultIoError e => Sys2Proof.Machine.execResultIoError e s
  | .selCmd => Sys2Proof.Machine.execSelCmd s
  | .selData => Sys2Proof.Machine.execSelData s
  | .panelDisplayOff => Sys2Proof.Machine.execPanelDisplayOff s
  | .panelClockDiv v => Sys2Proof.Machine.execPanelClockDiv v s
  | .panelMuxRatio v => Sys2Proof.Machine.execPanelMuxRatio v s
  | .panelDisplayOffset v => Sys2Proof.Machine.execPanelDisplayOffset v s
  | .panelSegRemap => Sys2Proof.Machine.execPanelSegRemap s
  | .panelComScanRev => Sys2Proof.Machine.execPanelComScanRev s
  | .panelComPins v => Sys2Proof.Machine.execPanelComPins v s
  | .panelContrast v => Sys2Proof.Machine.execPanelContrast v s
  | .panelPrecharge v => Sys2Proof.Machine.execPanelPrecharge v s
  | .panelVcomh v => Sys2Proof.Machine.execPanelVcomh v s
  | .panelResumeRam => Sys2Proof.Machine.execPanelResumeRam s
  | .panelNormalPolarity => Sys2Proof.Machine.execPanelNormalPolarity s
  | .panelScrollOff => Sys2Proof.Machine.execPanelScrollOff s
  | .panelAddrMode v => Sys2Proof.Machine.execPanelAddrMode v s
  | .panelChargePump v => Sys2Proof.Machine.execPanelChargePump v s
  | .panelDisplayOn => Sys2Proof.Machine.execPanelDisplayOn s
  | .panelSetColRange first last => Sys2Proof.Machine.execPanelSetColRange first last s
  | .panelSetPageRange first last => Sys2Proof.Machine.execPanelSetPageRange first last s

end Sys2Proof.Machine
end

