-- ==== Sys2Proof/Machine/Fetch.lean ====
section
/-! DEFINITION. What the machine takes from its ports in `IDLE` (30_encoding.md R63; logs 7, 9, 10, 19), and how a
word of the opcode table is put there. -/

namespace Sys2Proof.Machine

open Sys2Proof

/-- What a fetch gives: nothing offered, an instruction with the state in which it runs, or something that is no
instruction of the table, already dealt with. -/
inductive Fetched where
  | nothing
  | instr (i : Instr) (s : State)
  | handled (o : Host.Outcome State Fault Refusal)

/-- A command word of no row (R69): accepted, `InvalidArgument`, nothing else. -/
def illegalCommand (s : State) : State := raiseInvalidArgument s

/-- The bus bytes not taken yet stay offered. -/
def remaining (bytes : List Byte) (rest : List Offer) : List Offer :=
  match bytes with
  | [] => rest
  | b :: more => .bus (b :: more) :: rest

/-- An instruction, or what is done with a word that is none. -/
def instrOr (o : Host.Outcome State Fault Refusal) (s : State) (i : Option Instr) : Fetched :=
  match i with
  | some i => .instr i s
  | none => .handled o

/-- One byte on the bus, on the command channel. -/
def feedCommand (b : Byte) (more : List Byte) (rest : List Offer) (s : State) : Fetched :=
  .handled (.next (setPanel (s.panel.cmdByte b) (setPort (remaining more rest) s)))

/-- Bytes on the bus: pixel data on the data channel; on the command channel a whole command, where the panel has
no unfinished one and a whole one has come, else one more byte of a command. -/
def fetchBus (b : Byte) (more : List Byte) (rest : List Offer) (s : State) : Fetched :=
  match s.channel with
  | .data => .handled (.next (setPanel (s.panel.dataByte b) (setPort (remaining more rest) s)))
  | .cmd =>
    match s.panel.pending with
    | [] =>
      match decodePanel (b :: more) with
      | .instr i after => .instr i (setPort (remaining after rest) s)
      | .reject _ => feedCommand b more rest s
    | _ :: _ => feedCommand b more rest s

/-- The next thing offered. -/
def fetch (s : State) : Fetched :=
  match s.port with
  | [] => .nothing
  | .command w :: rest => instrOr (.next (illegalCommand (setPort rest s))) (setPort rest s) (decodeCommand w)
  | .result w :: rest => instrOr (.refused (.resultNeverProduced w)) (setPort rest s) (decodeResult w)
  | .selector b :: rest => instrOr (.refused (.selectorNeverSent b)) (setPort rest s) (decodeSelector b)
  | .bus [] :: rest => .handled (.next (setPort rest s))
  | .bus (b :: more) :: rest => fetchBus b more rest s

/-- A word of the opcode table as an offer on the port of its layer. -/
def offerOf (l : Layer) (nbits w : Nat) : Offer :=
  match l with
  | .hostCommand => .command (BitVec.ofNat 32 w)
  | .hostResult => .result (BitVec.ofNat 16 w)
  | .transportSelector => .selector (BitVec.ofNat 8 w)
  | .panelCommand => .bus (tableBytes .panelCommand nbits w)

/-- The state in which the next step takes what is offered: no reset, no operation running, and on the bus the
command channel and no unfinished command. -/
def readyFor (l : Layer) (s : State) : State :=
  match l with
  | .hostCommand => { s with rst := false, seq := .idle, request := none }
  | .hostResult => { s with rst := false, seq := .idle, request := none }
  | .transportSelector => { s with rst := false, seq := .idle, request := none }
  | .panelCommand =>
    { s with rst := false, seq := .idle, request := none, channel := .cmd, panel := { s.panel with pending := [] } }

/-- The state with a table row's word offered where the next step takes it. -/
def placeWord (s : State) (nbits w : Nat) : State :=
  match tableLayer nbits w with
  | some l => setPort (offerOf l nbits w :: s.port) (readyFor l s)
  | none => s

end Sys2Proof.Machine
end

