-- ==== Sys2Proof/Machine/Step.lean ====
section
/-! DEFINITION. One step of the machine: reset while `rst` is asserted (70_reset_and_hazards.md R190), else the
running operation's next action (10_state.md R27), else what is offered at the ports (30_encoding.md R63). -/

namespace Sys2Proof.Machine

open Sys2Proof

/-- One step in `IDLE`: with nothing offered the block waits (R190); an instruction runs by `exec`. -/
def stepIdle (s : State) : Host.Outcome State Fault Refusal :=
  match fetch s with
  | .nothing => .next s
  | .instr i t => exec i t
  | .handled o => o

/-- One step. DESIGN CHOICE, log 27: a word offered while `rst` is asserted, on which R63 and R190 say nothing, is not
accepted; it stays offered until `rst` is released; unsafe. -/
def step (s : State) : Host.Outcome State Fault Refusal :=
  if s.rst then .next (applyReset s)
  else
    match s.seq with
    | .idle => stepIdle s
    | .run _ _ => seqStep s

/-- The state with a table row's word offered where the next step takes it (log 7). -/
def State.withFetchWord (s : State) (nbits w : Nat) : State := placeWord s nbits w

end Sys2Proof.Machine
end

