-- ==== Sys2Proof/Machine/Inputs.lean ====
section
/-! DEFINITION. What the outside can do to the machine between steps (00_scope.md R12; 30_encoding.md R63;
10_state.md R30; 70_reset_and_hazards.md R190), and nothing else. -/

namespace Sys2Proof.Machine

open Sys2Proof

/-- One event from outside. -/
inductive Input where
  /-- The host offers a command word (R63). It cannot offer a result: `resp` is an output (R12, R29). -/
  | command (w : Word32)
  /-- Another user of the transport begins a transaction on one of its two registers (R43, R178; log 19). -/
  | select (sel : Selector)
  /-- Bytes of such a transaction come on the bus (R178; log 19). -/
  | bus (bytes : List Byte)
  /-- The transport answers a write (R47). -/
  | answer (a : Answer)
  /-- The timing provider completes a delay (R175). -/
  | delayDone
  /-- The pins change (R30, R202). -/
  | pins (p : Pins)
  /-- The reset input is asserted or released (R190). -/
  | rst (b : Bool)
  /-- The panel alone loses its power and comes back (70_reset_and_hazards.md R204). -/
  | panelPowerCycle
  deriving DecidableEq, Repr

/-- The selector byte of a channel (R43). -/
def Selector.byte (sel : Selector) : Byte :=
  match sel with
  | .cmd => Config.selCmd
  | .data => Config.selData

/-- What is offered stands behind what was offered before. DESIGN CHOICE, log 27: an offer is not withdrawn; unsafe. -/
def offer (o : Offer) (s : State) : State := setPort (s.port ++ [o]) s

/-- Whether an answer is one the transport can give: `OK`, or an error of `IoErr` (00_scope.md R8). -/
def Answer.legal (a : Answer) : Bool :=
  match a with
  | .ok => true
  | .err e => Config.isIoErr e

/-- The transport gives an answer; where it is none of its answers, nothing has happened. -/
def giveAnswer (a : Answer) (s : State) : State :=
  if a.legal then { s with answers := s.answers ++ [a] } else s

/-- The timing provider completes a delay. -/
def giveDelay (s : State) : State := { s with delaysDone := s.delaysDone + 1 }

/-- The pins take another level. -/
def setPins (p : Pins) (s : State) : State := { s with pins := p }

/-- `rst` takes a level. While it is asserted and at the moment it is released every piece of the block has its reset
value (R190), and asserting it abandons the operation in progress at once (R192). -/
def setRst (b : Bool) (s : State) : State :=
  if b || s.rst then { applyReset s with rst := b } else s

/-- The state after an event from outside. DESIGN CHOICE, log 27: the host cannot withdraw an offer, and an offer
stands through a reset; the spec is silent on both; unsafe. -/
def applyInput (e : Input) (s : State) : State :=
  match e with
  | .command w => offer (.command w) s
  | .select sel => offer (.selector sel.byte) s
  | .bus bytes => offer (.bus bytes) s
  | .answer a => giveAnswer a s
  | .delayDone => giveDelay s
  | .pins p => setPins p s
  | .rst b => setRst b s
  | .panelPowerCycle => setPanel s.panel.powerCycle s

end Sys2Proof.Machine
end

