-- ==== Sys2Proof/Machine/Software.lean ====
section
/-! DEFINITION. The software layer over the block (42_software_pseudo_ops.md; log 21). DESIGN CHOICE, log 29:
coordinates, widths and heights are unbounded naturals, the document giving no integer type for them (R129, N19);
unsafe. No routine is an operation of the block: each is `InvalidArgument` (`none`) or a list of `SET_PIXEL`
operations the host then issues (R120). -/

namespace Sys2Proof.Machine

open Sys2Proof

/-- The `SET_PIXEL` of a point of the panel. -/
def plotOp (x y : Int) (c : Color) : Instr := .setPixel (BitVec.ofInt 8 x) (BitVec.ofInt 8 y) c

/-! ## Geometry -/

/-- +1 or −1 toward the target (R121 (b): the value for equal coordinates is never used). -/
def towards (a b : Int) : Int := if a < b then 1 else -1

/-- The loop of R121, at most `n` points. Both tests of an iteration use the same `e2` (D25). -/
def lineLoop (n : Nat) (x y x1 y1 dx dy sx sy err : Int) (c : Color) : List Instr :=
  match n with
  | 0 => []
  | n + 1 =>
    plotOp x y c ::
      if x = x1 ∧ y = y1 then []
      else
        let e2 := 2 * err
        let xMoves := e2 > -dy
        let yMoves := e2 < dx
        lineLoop n (if xMoves then x + sx else x) (if yMoves then y + sy else y) x1 y1 dx dy sx sy
          (err - (if xMoves then dy else 0) + (if yMoves then dx else 0)) c

/-- The points of a line whose endpoints are on the panel: `max(dx, dy) + 1` of them (R121). -/
def linePoints (x0 y0 x1 y1 : Nat) (c : Color) : List Instr :=
  let dx := ((x1 : Int) - x0).natAbs
  let dy := ((y1 : Int) - y0).natAbs
  lineLoop (max dx dy + 1) x0 y0 x1 y1 dx dy (towards x0 x1) (towards y0 y1) ((dx : Int) - dy) c

/-- `draw_line` (R121). Coordinates are unbounded naturals (DESIGN CHOICE, log 29, unsafe): none is negative, no sum wraps. -/
def drawLine (s : State) (x0 y0 x1 y1 : Nat) (c : Color) : Option (List Instr) :=
  if s.initialized && x0 < Config.width && x1 < Config.width && y0 < Config.height && y1 < Config.height then
    some (linePoints x0 y0 x1 y1 c)
  else none

/-- The bounds of a rectangle (R129, R122): `w ≥ 1`, `h ≥ 1`, `x + w ≤ 128`, `y + h ≤ 64`. -/
def rectOk (x y w h : Nat) : Bool :=
  0 < w && 0 < h && x < Config.width && y < Config.height && x + w ≤ Config.width && y + h ≤ Config.height

/-- `draw_rect_outline` (R122): top, bottom, left, right. -/
def drawRectOutline (s : State) (x y w h : Nat) (c : Color) : Option (List Instr) :=
  if s.initialized && rectOk x y w h then
    some (linePoints x y (x + w - 1) y c ++ linePoints x (y + h - 1) (x + w - 1) (y + h - 1) c ++
      linePoints x y x (y + h - 1) c ++ linePoints (x + w - 1) y (x + w - 1) (y + h - 1) c)
  else none

/-- `fill_rect` (R123): rows top to bottom, each left to right. -/
def fillRect (s : State) (x y w h : Nat) (c : Color) : Option (List Instr) :=
  if s.initialized && rectOk x y w h then
    some ((List.range h).flatMap fun j => (List.range w).map fun i => plotOp ((x + i : Nat)) ((y + j : Nat)) c)
  else none

/-! ## Text -/

/-- The font sizes (R129). An unrecognised one is `none` where a routine takes an `Option Font`. -/
inductive Font where
  | small
  | large
  deriving DecidableEq, Repr

/-- Glyph width (R129). -/
def Font.width (f : Font) : Nat :=
  match f with
  | .small => 6
  | .large => 8

/-- Glyph height (R129). -/
def Font.height (f : Font) : Nat :=
  match f with
  | .small => 8
  | .large => 16

/-- `GlyphColumn(font, g, band, i)` (R124, D26): an entry of an open table. -/
def glyphColumn (f : Font) (g band i : Nat) : Byte :=
  match f with
  | .small => Config.glyphSmall g i
  | .large => Config.glyphLarge g (8 * band + i)

/-- A character outside ' ' to '~' is the space (R124). DESIGN CHOICE, log 36: a character code is a byte, the document
giving it no width; safe. -/
def clampChar (ch : Byte) : Nat := if ch.toNat < 0x20 ∨ 0x7E < ch.toNat then 0x20 else ch.toNat

/-- The pixels of a glyph (R124): set bits only. -/
def glyphPixels (x y : Nat) (ch : Byte) (f : Font) (c : Color) : List Instr :=
  (List.range (f.height / 8)).flatMap fun band =>
    (List.range f.width).flatMap fun i =>
      (List.range 8).flatMap fun r =>
        if (glyphColumn f (clampChar ch - 0x20) band i).getLsbD r then
          [plotOp ((x + i : Nat)) ((y + 8 * band + r : Nat)) c]
        else []

/-- Whether a glyph's box stays on the panel (R124). -/
def glyphFits (x y : Nat) (f : Font) : Bool := x + f.width ≤ Config.width && y + f.height ≤ Config.height

/-- `draw_char` (R124); the character is a byte (log 36). -/
def drawChar (s : State) (x y : Nat) (ch : Byte) (font : Option Font) (c : Color) : Option (List Instr) :=
  match font with
  | none => none
  | some f => if s.initialized && glyphFits x y f then some (glyphPixels x y ch f c) else none

/-- The loop of `draw_string` (R125): `cx`, `cy` is where the next glyph goes; the wrap column is `x` (C4, D27). -/
def stringLoop (text : List Byte) (x : Nat) (f : Font) (c : Color) (cx cy : Nat) : List Instr :=
  match text with
  | [] => []
  | ch :: rest =>
    if ch = 0x0A then stringLoop rest x f c x (cy + f.height)
    else
      let wraps := Config.width < cx + f.width
      let gx := if wraps then x else cx
      let gy := if wraps then cy + f.height else cy
      if glyphFits gx gy f then glyphPixels gx gy ch f c ++ stringLoop rest x f c (gx + f.width) gy else []

/-- `draw_string` (R125); the text is a list of bytes (log 36). -/
def drawString (s : State) (x y : Nat) (text : List Byte) (font : Option Font) (c : Color) : Option (List Instr) :=
  match font with
  | none => none
  | some f => if s.initialized then some (stringLoop text x f c x y) else none

/-- The decimal digits of a number below 10^`n` in front of `acc`, no leading zeros, at least one digit (R126). -/
def decimalLoop (n v : Nat) (acc : List Byte) : List Byte :=
  match n with
  | 0 => acc
  | n + 1 =>
    if v < 10 then BitVec.ofNat 8 (0x30 + v) :: acc
    else decimalLoop n (v / 10) (BitVec.ofNat 8 (0x30 + v % 10) :: acc)

/-- The text of an unsigned number (R126): at most ten digits. -/
def decimal (v : Nat) : List Byte := decimalLoop 10 v []

/-- The text of a signed number (R127). -/
def signedDecimal (v : Int) : List Byte := if v < 0 then 0x2D :: decimal v.natAbs else decimal v.natAbs

/-- `draw_unsigned` (R126). -/
def drawUnsigned (s : State) (x y : Nat) (v : BitVec 32) (font : Option Font) (c : Color) : Option (List Instr) :=
  drawString s x y (decimal v.toNat) font c

/-- `draw_signed` (R127). -/
def drawSigned (s : State) (x y : Nat) (v : BitVec 32) (font : Option Font) (c : Color) : Option (List Instr) :=
  drawString s x y (signedDecimal v.toInt) font c

/-! ## Issuing the operations -/

/-- The host issues the operations one after another, each taken when the one before has ended (R52 (a)). -/
def issueAll (ops : List Instr) (s : State) : Host.Outcome State Fault Refusal :=
  match ops with
  | [] => .next s
  | i :: rest =>
    match exec i s with
    | .next t => issueAll rest t
    | .fault f => .fault f
    | .refused r => .refused r

end Sys2Proof.Machine
end

