-- ==== Sys2Proof/Safety.lean ====
section
/-! DEFINITION. The terms claims use: the traces the rules list, what two states share, and the invariant of a
sound state. -/

namespace Sys2Proof.Machine

open Sys2Proof

/-! ## The traces the rules list -/

/-- `Cmd(b)` for each byte in order, at this handle and address (30_encoding.md R75). -/
def cmdEvents (h : BusHandle) (a : BusAddr) (bytes : List Byte) : List Event :=
  bytes.map fun b => .write h a .cmd [b]

/-- The trace of a whole `INIT` (40_context_bringup.md R93): the bring-up bytes, the delay, "display on". -/
def initTrace (p : Config.Params) (h : BusHandle) (a : BusAddr) : List Event :=
  cmdEvents h a p.bringup.flatten ++ [.delay p.settleMs] ++ cmdEvents h a [p.cmdDisplayOn]

/-- The transaction of page action `j` of page `n` (43_flush.md R142): its selector and its bytes. -/
def pageTransaction (s : State) (n j : Nat) : Selector × List Byte :=
  match j with
  | 0 => (.cmd, [s.params.cmdSetColRange])
  | 1 => (.cmd, [0x00])
  | 2 => (.cmd, [0x7F])
  | 3 => (.cmd, [s.params.cmdSetPageRange])
  | 4 => (.cmd, [BitVec.ofNat 8 n])
  | 5 => (.cmd, [0x07])
  | _ => (.data, (List.range 128).map fun c => Memory.read s.fb (n * 128 + c))

/-- The request of transaction `k` of a flush (R145): page action `k % 7` of page `k / 7`. -/
def flushRequest (s : State) (k : Nat) : Request :=
  .write (pageTransaction s (k / 7) (k % 7)).1 (pageTransaction s (k / 7) (k % 7)).2

/-- Transaction `k` of a flush. -/
def flushEvent (s : State) (k : Nat) : Event := eventOf (flushRequest s k) s

/-- The first `n` transactions of a flush. -/
def flushEvents (s : State) (n : Nat) : List Event := (List.range n).map (flushEvent s)

/-- The bytes a trace item carries. -/
def Event.bytes (e : Event) : List Byte :=
  match e with
  | .write _ _ _ bytes => bytes
  | .delay _ => []

/-- Whether a trace item is a write on this channel. -/
def Event.isOn (sel : Selector) (e : Event) : Bool :=
  match e with
  | .write _ _ s _ => s == sel
  | .delay _ => false

/-- Whether a trace item is a delay request. -/
def Event.isDelay (e : Event) : Bool :=
  match e with
  | .write _ _ _ _ => false
  | .delay _ => true

/-- The lengths of transactions (30_encoding.md R74): 1 on the command channel, 128 on the data channel. -/
def Event.lengthOk (e : Event) : Bool :=
  match e with
  | .write _ _ .cmd bytes => bytes.length == 1
  | .write _ _ .data bytes => bytes.length == 128
  | .delay _ => true

/-! ## What two states share -/

/-- Every byte of the frame buffer reads as before. -/
def SameBuffer (s t : State) : Prop := ∀ a, Memory.read t.fb a = Memory.read s.fb a

/-- Every context register is as before. -/
def SameContext (s t : State) : Prop :=
  t.initialized = s.initialized ∧ t.busAddr = s.busAddr ∧ t.busHandle = s.busHandle ∧
    t.tpBound = s.tpBound ∧ t.tmBound = s.tmBound

/-- The parameters wired in, the pins, the reset input and what stands offered are as before. -/
def SameInputs (s t : State) : Prop := t.params = s.params ∧ t.pins = s.pins ∧ t.rst = s.rst ∧ t.port = s.port

/-- The state after an operation that ended with `r` and changed nothing else. -/
def onlyResult (r : Result) (s : State) : State :=
  { s with lastResult := r, responses := s.responses ++ [r.word] }

/-- The operation has ended with this result: `last_result`, `IDLE`, one result word, nothing outstanding. -/
def EndedWith (r : Result) (s t : State) : Prop :=
  t.lastResult = r ∧ t.seq = .idle ∧ t.request = none ∧ t.responses = s.responses ++ [r.word]

/-- Whether an operation is an `INIT`. -/
def Operation.isInit (op : Operation) : Bool :=
  match op with
  | .init _ _ => true
  | .deinit => false
  | .powerOn => false
  | .powerOff => false
  | .clear => false
  | .setPixel _ _ _ => false
  | .updateDisplay => false

/-- Action `k` of an operation has completed without error (R27): the next action, the context as before; or, at the
last action, the end with `OK`, which for `INIT` sets `ctx.initialized` (R93). -/
def Completed (op : Operation) (k : Nat) (s t : State) : Prop :=
  (k + 1 < (actions s.params op).length →
    t.seq = .run op (k + 1) ∧ t.request = none ∧ t.lastResult = s.lastResult ∧ t.responses = s.responses ∧
      SameContext s t) ∧
  ((actions s.params op).length ≤ k + 1 →
    EndedWith .ok s t ∧ t.initialized = (op.isInit || s.initialized) ∧ t.busAddr = s.busAddr ∧
      t.busHandle = s.busHandle ∧ t.tpBound = s.tpBound ∧ t.tmBound = s.tmBound)

/-- No operation runs and nothing is outstanding: the command port is ready. -/
def Ready (s : State) : Prop := s.seq = .idle ∧ s.request = none

/-- The host operation of a command word's instruction. -/
def operationOf (i : Instr) : Option Operation :=
  match i with
  | .init a h => some (.init a h)
  | .deinit => some .deinit
  | .powerOn => some .powerOn
  | .powerOff => some .powerOff
  | .clear => some .clear
  | .setPixel x y c => some (.setPixel x y c)
  | .updateDisplay => some .updateDisplay
  | .resultOk => none
  | .resultInvalidArgument => none
  | .resultIoError _ => none
  | .selCmd => none
  | .selData => none
  | .panelDisplayOff => none
  | .panelClockDiv _ => none
  | .panelMuxRatio _ => none
  | .panelDisplayOffset _ => none
  | .panelSegRemap => none
  | .panelComScanRev => none
  | .panelComPins _ => none
  | .panelContrast _ => none
  | .panelPrecharge _ => none
  | .panelVcomh _ => none
  | .panelResumeRam => none
  | .panelNormalPolarity => none
  | .panelScrollOff => none
  | .panelAddrMode _ => none
  | .panelChargePump _ => none
  | .panelDisplayOn => none
  | .panelSetColRange _ _ => none
  | .panelSetPageRange _ _ => none

/-- An outcome with its next state changed. -/
def mapNext (f : State → State) (o : Host.Outcome State Fault Refusal) : Host.Outcome State Fault Refusal :=
  match o with
  | .next s => .next (f s)
  | .fault r => .fault r
  | .refused r => .refused r

/-! ## The invariant -/

/-- What the checks and the first actions of a running operation have established (R163, R91, R96). -/
def startedOk (op : Operation) (k : Nat) (s : State) : Bool :=
  match op with
  | .init a h => k == 0 || (s.tpBound && s.tmBound && !s.initialized && s.busAddr == a && s.busHandle == h)
  | .deinit => s.tpBound && s.tmBound && (k == 0 || !s.initialized)
  | .powerOn => s.tpBound && s.tmBound
  | .powerOff => s.tpBound && s.tmBound
  | .clear => s.initialized
  | .setPixel x y _ => s.initialized && onPanel x y
  | .updateDisplay => s.initialized

/-- The sequencer stands at an action of its operation, and an outstanding request is that action's; in `IDLE`
nothing is outstanding (R27, R47). -/
def seqOk (s : State) : Bool :=
  match s.seq with
  | .idle => s.request.isNone
  | .run op k =>
    startedOk op k s &&
      match (actions s.params op)[k]? with
      | some a => s.request.isNone || s.request == requestOf a s
      | none => false

/-- What can stand offered from outside: command words, the two selectors, bytes on the bus; never a result word
(R12, R29, R73). -/
def Offer.fromOutside (o : Offer) : Bool :=
  match o with
  | .command _ => true
  | .result _ => false
  | .selector b => (decodeSelector b).isSome
  | .bus _ => true

/-- A result whose error, where it has one, is of `IoErr` (00_scope.md R8). -/
def Result.legal (r : Result) : Bool :=
  match r with
  | .ok => true
  | .invalidArgument => true
  | .ioError e => Config.isIoErr e

/-- Every piece of the block has its reset value (10_state.md R34). -/
abbrev BlockReset (s : State) : Prop :=
  s.fb = [] ∧ s.initialized = false ∧ s.busAddr = 0 ∧ s.busHandle = 0 ∧ s.tpBound = false ∧ s.tmBound = false ∧
    s.seq = .idle ∧ s.lastResult = .ok ∧ s.request = none

/-- A reset has led from `s` to `t` (R190, R192, R193). Every piece of the block has its reset value; the records, the
parameters and the pins are as before, and so are the answers and completions standing by and what stands offered (the
model's choice: logs 18, 31, 27). The panel is as before where no operation ran; where one ran with no write outstanding
an unfinished command is kept or dropped (log 33) and all else of the panel is as before; of an outstanding write it has
taken what a failed one leaves (log 18). -/
def AfterReset (s t : State) : Prop :=
  BlockReset t ∧ t.trace = s.trace ∧ t.responses = s.responses ∧ t.answers = s.answers ∧
    t.delaysDone = s.delaysDone ∧ t.params = s.params ∧ t.pins = s.pins ∧ t.port = s.port ∧
    (s.seq = .idle → t.panel = s.panel ∧ t.channel = s.channel) ∧
    (∀ op k, s.seq = .run op k → (∀ sel bytes, s.request ≠ some (.write sel bytes)) →
      t.channel = s.channel ∧ (s.panel.pending = [] → t.panel = s.panel) ∧
      ∃ d, t.panel = { s.panel with draws := d } ∨ t.panel = { s.panel with draws := d, pending := [] }) ∧
    (∀ op k sel bytes, s.seq = .run op k → s.request = some (.write sel bytes) →
      t.channel = sel ∧ t.panel = s.panel.torn sel bytes)

/-- A sound state: the memories in their canonical forms, an initialised context has its handles (10_state.md R35),
the sequencer at an action, every transaction of a legal length (R74), the panel's unfinished command unfinished; at
the ports only what the outside can put there, errors only of `IoErr` (R8, R12); reset values while `rst` is asserted
(R190). -/
abbrev Inv (s : State) : Prop :=
  Memory.wf s.fb = true ∧ Panel.wf s.panel = true ∧ (s.initialized = true → s.tpBound = true ∧ s.tmBound = true) ∧
    seqOk s = true ∧ s.trace.all Event.lengthOk = true ∧ s.port.all Offer.fromOutside = true ∧
    s.answers.all Answer.legal = true ∧ s.lastResult.legal = true ∧ (s.rst = true → BlockReset s) ∧
    s.params.wf = true

end Sys2Proof.Machine
end

