-- ==== Sys2Proof/Certificates/Slice0/Obligations.lean ====
section
/-! DEFINITION. The statements for the provers. -/

open Sys2Proof Sys2Proof.Machine

/-! ## Encoding -/

/-- Every well-formed instruction is read back from its own bytes, whatever bytes follow (30_encoding.md R66 to R70,
R73, R77 to R79). The layout of a word as bytes is the model's choice (log 1). -/
def Obligations.DecodeEncodeRoundTrip : Prop :=
  ∀ (i : Instr) (rest : List Byte), WellFormed i = true → decode (layerOf i) (encode i ++ rest) = .instr i rest

/-- The decoder reads nothing but encodings: what it reads is well-formed, of that layer, and encodes back to the
bytes it was read from, so no two words are one instruction and no bit is dropped (R69, R82). Log 1. -/
def Obligations.DecodeReadsOnlyEncodings : Prop :=
  ∀ (l : Layer) (bs : List Byte) (i : Instr) (rest : List Byte), decode l bs = .instr i rest →
    WellFormed i = true ∧ layerOf i = l ∧ encode i ++ rest = bs

/-- Words written out from the spec's encodings decode to the instructions they stand for (R66 to R68, R70, R73,
R77, R78; 95_test_vectors.md V-D3, V-D12). The panel bytes are the model's configuration (log 3). -/
def Obligations.WrittenOutWordsDecode : Prop :=
  decodeCommand 0x1000023D = some (.init 0x3D 2) ∧
  decodeCommand 0x60010A05 = some (.setPixel 5 10 .on) ∧
  decodeCommand 0x70000000 = some .updateDisplay ∧
  decodeResult 0x0207 = some (.resultIoError 7) ∧
  decodeSelector 0x40 = some .selData ∧
  decodePanel [0x21, 0x00, 0x7F, 0x22] = .instr (.panelSetColRange 0x00 0x7F) [0x22] ∧
  decodePanel [0x81, 0xCF] = .instr (.panelContrast 0xCF) []

/-- A word of no row is accepted, ends with `InvalidArgument` and changes nothing else; such are the words whose
`op` is 0 or 8 to 15, and those with a reserved bit set; the all-zero word is one (R69). -/
def Obligations.IllegalWordGivesInvalidArgument : Prop :=
  let noRow (w : Word32) : Prop :=
    w &&& 0xFFFF0080 ≠ 0x10000000 ∧ w &&& 0xFFFE0000 ≠ 0x60000000 ∧ w ≠ 0x20000000 ∧ w ≠ 0x30000000 ∧
      w ≠ 0x40000000 ∧ w ≠ 0x50000000 ∧ w ≠ 0x70000000
  (∀ (s : State) (w : Word32) (rest : List Offer), s.rst = false → Ready s → s.port = .command w :: rest → noRow w →
    step s = .next { s with
      port := rest, lastResult := .invalidArgument, responses := s.responses ++ [0x0100#16] }) ∧
  (∀ w : Word32, (w.extractLsb' 28 4 = 0 ∨ 8 ≤ (w.extractLsb' 28 4).toNat) → noRow w) ∧
  (∀ w : Word32, w.extractLsb' 28 4 = 1 → w &&& 0x0FFF0080 ≠ 0 → noRow w) ∧
  (∀ w : Word32, w.extractLsb' 28 4 = 6 → w &&& 0x0FFE0000 ≠ 0 → noRow w) ∧
  (∀ w : Word32, (w.extractLsb' 28 4 = 2 ∨ w.extractLsb' 28 4 = 3 ∨ w.extractLsb' 28 4 = 4 ∨
    w.extractLsb' 28 4 = 5 ∨ w.extractLsb' 28 4 = 7) → w &&& 0x0FFFFFFF ≠ 0 → noRow w) ∧
  noRow 0

/-- The result word: bits 15 to 10 zero, `kind`, `io_err`; the three complete words; kind 3 never; it decodes to its
own result instruction (R70). The six status outputs S0 to S5, and that nothing from outside but `rst` changes one
(R29, R12). -/
def Obligations.ResultWordAndStatusOutputs : Prop :=
  (∀ (s : State) (e : IoErr),
    Result.word .ok = 0x0000 ∧ Result.word .invalidArgument = 0x0100 ∧
    Result.word (.ioError e) = 0x0200 + e.setWidth 16 ∧
    s.lastResult.word.extractLsb' 10 6 = 0 ∧
    s.lastResult.word.extractLsb' 8 2 = statusResultKind s ∧
    s.lastResult.word.extractLsb' 0 8 = statusResultIoErr s ∧
    statusResultKind s ≠ 3 ∧
    decodeResult (Result.word (.ioError e)) = some (.resultIoError e)) ∧
  (∀ s : State,
    (statusBusy s = true ↔ s.seq ≠ .idle) ∧ cmdReady s = !statusBusy s ∧ statusInitialized s = s.initialized ∧
    statusResultKind s = (match s.lastResult with | .ok => 0 | .invalidArgument => 1 | .ioError _ => 2) ∧
    statusResultIoErr s = (match s.lastResult with | .ok => 0 | .invalidArgument => 0 | .ioError e => e) ∧
    statusBusAddr s = s.busAddr ∧ (statusBound s).getLsbD 1 = s.tmBound ∧ (statusBound s).getLsbD 0 = s.tpBound) ∧
  (∀ (s : State) (e : Input), (∀ b, e ≠ .rst b) →
    statusBusy (applyInput e s) = statusBusy s ∧ statusInitialized (applyInput e s) = statusInitialized s ∧
    statusResultKind (applyInput e s) = statusResultKind s ∧ statusResultIoErr (applyInput e s) = statusResultIoErr s ∧
    statusBusAddr (applyInput e s) = statusBusAddr s ∧ statusBound (applyInput e s) = statusBound s)

/-! ## Reset, steps, waiting -/

/-- After reset every piece of the block's state has the value of R34. -/
def Obligations.ResetLeavesTheBlockZeroed : Prop :=
  (∀ p c, p < 8 → c < 128 → fbRead State.reset p c = some 0x00) ∧
  State.reset.initialized = false ∧ State.reset.busAddr = 0 ∧ State.reset.busHandle = 0 ∧
  State.reset.tpBound = false ∧ State.reset.tmBound = false ∧ State.reset.seq = .idle ∧
  State.reset.lastResult = .ok

/-- A step while `rst` is asserted, asserting `rst`, and releasing it, are each a reset, whatever ran (R190, R192): every
piece of the block's state has its reset value, nothing is appended to `T`, no result is produced, and the panel is not
reset (R193; what an outstanding write or an unfinished command leaves: logs 18, 33; all in `AfterReset`). Once
released, with nothing offered, the block waits. That the answers and completions standing by and what stands offered
stay is the model's choice (logs 18, 31 and 27). -/
def Obligations.ResetInputClearsTheBlock : Prop :=
  (∀ s t : State, AfterReset s t →
    (∀ p c, p < 8 → c < 128 → fbRead t p c = some 0x00) ∧ ∀ a, Memory.read t.fb a = 0x00) ∧
  (∀ s : State, s.rst = true →
    ∃ t, step s = .next t ∧ AfterReset s t ∧ t.rst = true ∧
      step { t with rst := false, port := [] } = .next { t with rst := false, port := [] }) ∧
  (∀ s : State, AfterReset s (applyInput (.rst true) s) ∧ (applyInput (.rst true) s).rst = true) ∧
  (∀ s : State, s.rst = true → AfterReset s (applyInput (.rst false) s) ∧ (applyInput (.rst false) s).rst = false) ∧
  (∀ s : State, s.rst = false → applyInput (.rst false) s = s)

/-- When what is offered decodes to an instruction, a step is that instruction's meaning on the state with the offer
taken: on the command port, the result port, the transport's selector, and the bus with the command channel selected
and no unfinished command (R63, logs 7, 9, 10). Other bytes on the bus go to the panel one a step: pixel data on the
data channel, on the command channel a byte of an unfinished command or one that is no whole command yet (log 19). -/
def Obligations.StepRunsDecodedInstruction : Prop :=
  ∀ (s : State) (i : Instr) (rest : List Offer), s.rst = false → s.seq = .idle →
    (∀ w, s.port = .command w :: rest → decode .hostCommand (bytesOfWord32 w) = .instr i [] →
      step s = exec i (setPort rest s)) ∧
    (∀ w, s.port = .result w :: rest → decode .hostResult (bytesOfWord16 w) = .instr i [] →
      step s = exec i (setPort rest s)) ∧
    (∀ b, s.port = .selector b :: rest → decode .transportSelector [b] = .instr i [] →
      step s = exec i (setPort rest s)) ∧
    (∀ bytes after, s.port = .bus bytes :: rest → s.channel = .cmd → s.panel.pending = [] →
      decode .panelCommand bytes = .instr i after → step s = exec i (setPort (remaining after rest) s)) ∧
    (∀ b more, s.port = .bus (b :: more) :: rest → s.channel = .data →
      step s = .next { s with panel := s.panel.dataByte b, port := remaining more rest }) ∧
    (∀ b more, s.port = .bus (b :: more) :: rest → s.channel = .cmd →
      (s.panel.pending ≠ [] ∨ ∃ why, decode .panelCommand (b :: more) = .reject why) →
      step s = .next { s with panel := s.panel.cmdByte b, port := remaining more rest }) ∧
    (s.port = .bus [] :: rest → step s = .next { s with port := rest }) ∧
    (s.port = [] → step s = .next s)

/-- One step of a running flush (R149): the page action of R142; `ERR(e)` ends it with `IoError(e)`, `OK` at the
last action ends it with `OK`, `OK` before goes to the next action, and no answer leaves it waiting, with
nothing else changed, for an answer that does later what it would have done at once; the buffer and the context are
as before. -/
def Obligations.FlushStepIsOnePageAction : Prop :=
  ∀ (s : State) (k : Nat), s.rst = false → s.request = none → s.seq = .run .updateDisplay k → k ≤ 55 →
    k / 7 ≤ 7 ∧
    (∀ e rest, s.answers = .err e :: rest →
      ∃ t, step s = .next t ∧ EndedWith (.ioError e) s t ∧ t.answers = rest ∧
        t.trace = s.trace ++ [flushEvent s k] ∧ SameBuffer s t ∧ SameContext s t) ∧
    (∀ rest, s.answers = .ok :: rest → k = 55 →
      ∃ t, step s = .next t ∧ EndedWith .ok s t ∧ t.answers = rest ∧
        t.trace = s.trace ++ [flushEvent s k] ∧ SameBuffer s t ∧ SameContext s t) ∧
    (∀ rest, s.answers = .ok :: rest → k < 55 →
      ∃ t, step s = .next t ∧ t.seq = .run .updateDisplay (k + 1) ∧ t.request = none ∧ t.answers = rest ∧
        t.lastResult = s.lastResult ∧ t.responses = s.responses ∧
        t.trace = s.trace ++ [flushEvent s k] ∧ SameBuffer s t ∧ SameContext s t) ∧
    (∀ waiting : State, waiting = { s with
        trace := s.trace ++ [flushEvent s k]
        request := some (flushRequest s k) } →
      (s.answers = [] → step s = .next waiting) ∧
      ∀ late, step { waiting with answers := late } = step { s with answers := late })

/-- A request that is never answered is a hang (R177): while the transport gives no answer to a write, or the
timing provider no completion to a delay, any number of steps leaves the state as it is, with `cmd_ready` 0. Only
reset ends it: asserting `rst` makes the block ready, and so does a step with `rst` asserted; no other input changes the
position or the request. -/
def Obligations.UnansweredRequestHangs : Prop :=
  ∀ (s : State) (op : Operation) (k : Nat), s.seq = .run op k →
    (((∃ sel bytes, s.request = some (.write sel bytes)) ∧ s.answers = []) ∨
      ((∃ ms, s.request = some (.delay ms)) ∧ s.delaysDone = 0)) →
    cmdReady s = false ∧
    (s.rst = false → ∀ n, Host.Core.run Sys2Proof.core n s = .next s) ∧
    cmdReady (applyInput (.rst true) s) = true ∧
    (s.rst = true → ∃ t, step s = .next t ∧ cmdReady t = true) ∧
    (∀ e, (∀ b, e ≠ .rst b) → (applyInput e s).seq = s.seq ∧ (applyInput e s).request = s.request)

/-- While an operation runs a second host operation has no effect and what is offered stays offered (R63, R199). -/
def Obligations.BusyHoldsOffTheHost : Prop :=
  ∀ (s : State) (op : Operation) (k : Nat), s.seq = .run op k →
    (∀ i, layerOf i = .hostCommand → exec i s = .next s) ∧
    (∀ t, s.rst = false → step s = .next t → t.port = s.port)

/-- The sequencer's positions (R27): a step of a running operation goes to the next action, waits at the same one, or
goes to `IDLE`, which it does only when the last action has completed, with `OK`, or when a write was answered with an
error, with that error; it never moves backward and never skips. -/
def Obligations.SequencerNeverSkips : Prop :=
  ∀ (s t : State) (op : Operation) (k : Nat), s.rst = false → s.seq = .run op k →
    k < (actions s.params op).length → step s = .next t →
    (t.seq = .run op (k + 1) ∧ k + 1 < (actions s.params op).length ∧ t.request = none) ∨
    (t.seq = .run op k ∧ t.request ≠ none) ∨
    (t.seq = .idle ∧
      ((k + 1 = (actions s.params op).length ∧ t.lastResult = .ok) ∨
        ∃ e rest, s.answers = .err e :: rest ∧ t.lastResult = .ioError e))

/-- One step of any running operation at a write or a delay (R27, R47, R175, R177), whether the request is issued by
this step or has waited: `OK`, or a completed delay, completes the action (`Completed`: the next action, or the end,
which for `INIT` sets `ctx.initialized`); `ERR(e)` ends the operation with `IoError(e)`; without an answer only the
request and its trace item are new. -/
def Obligations.StepAtARequest : Prop :=
  ∀ (s : State) (op : Operation) (k : Nat) (a : Action) (r : Request) (T : List Event), s.rst = false →
    s.seq = .run op k → (actions s.params op)[k]? = some a → requestOf a s = some r →
    ((s.request = none ∧ T = s.trace ++ [eventOf r s]) ∨ (s.request = some r ∧ T = s.trace)) →
    (∀ sel bytes, r = .write sel bytes →
      (s.answers = [] → step s = .next { s with trace := T, request := some r }) ∧
      (∀ e rest, s.answers = .err e :: rest →
        ∃ t, step s = .next t ∧ EndedWith (.ioError e) s t ∧ t.answers = rest ∧ t.delaysDone = s.delaysDone ∧
          t.trace = T ∧ SameBuffer s t ∧ SameContext s t ∧ SameInputs s t) ∧
      (∀ rest, s.answers = .ok :: rest →
        ∃ t, step s = .next t ∧ Completed op k s t ∧ t.answers = rest ∧ t.delaysDone = s.delaysDone ∧
          t.trace = T ∧ SameBuffer s t ∧ SameInputs s t)) ∧
    (∀ ms, r = .delay ms →
      (s.delaysDone = 0 → step s = .next { s with trace := T, request := some r }) ∧
      (∀ n, s.delaysDone = n + 1 →
        ∃ t, step s = .next t ∧ Completed op k s t ∧ t.answers = s.answers ∧ t.delaysDone = n ∧ t.trace = T ∧
          SameBuffer s t ∧ SameInputs s t ∧ t.panel = s.panel))

/-- The atomic big step and the sequencer's single steps agree (R27): what `exec` answers for a host operation whose
checks pass is what at least one and at most as many steps as it has actions lead to from its first action, and there
the operation has ended or waits for an answer. -/
def Obligations.BigStepIsTheStepsOfTheSequencer : Prop :=
  ∀ (s t : State) (i : Instr) (op : Operation), s.rst = false → Ready s → operationOf i = some op →
    argsOk op s = true → exec i s = .next t →
    ∃ n, 1 ≤ n ∧ n ≤ (actions s.params op).length ∧ Host.Core.run Sys2Proof.core n (setSeq (.run op 0) s) = .next t ∧
      (t.seq = .idle ∨ t.request ≠ none)

/-! ## Bring-up -/

/-- `INIT` with its pins high and every write answered `OK` (R93): the bring-up bytes in order, the settle delay, the
buffer cleared, "display on", then `ctx.initialized` = 1; the list has 4 + n actions for n bring-up bytes. With the
default parameters these are the 24 bytes of the fifteen groups in the document's order (R78), and 28 actions. -/
def Obligations.InitRunsTheWholeBringUp : Prop :=
  ∀ (s : State) (a : BusAddr) (h : BusHandle) (rest : List Answer) (d : Nat), Ready s →
    s.pins = ⟨true, true, true⟩ →
    s.answers = List.replicate (s.params.bringup.flatten.length + 1) .ok ++ rest → s.delaysDone = d + 1 →
    (actions s.params (.init a h)).length = 4 + s.params.bringup.flatten.length ∧
    ∃ t, exec (.init a h) s = .next t ∧ EndedWith .ok s t ∧ t.initialized = true ∧ t.busAddr = a ∧ t.busHandle = h ∧
      t.tpBound = true ∧ t.tmBound = true ∧ (∀ x, Memory.read t.fb x = 0x00) ∧
      t.trace = s.trace ++ initTrace s.params h a ∧ t.answers = rest ∧ t.delaysDone = d ∧ SameInputs s t ∧
      (s.params = Config.params → (actions s.params (.init a h)).length = 28 ∧
        t.trace = s.trace ++
          cmdEvents h a ([Config.cmdDisplayOff] ++ [Config.cmdClockDiv, Config.clockDiv] ++ [Config.cmdMuxRatio, 0x3F] ++
            [Config.cmdDisplayOffset, 0x00] ++ [Config.cmdSegRemap] ++ [Config.cmdComScanRev] ++
            [Config.cmdComPins, Config.comPins] ++ [Config.cmdContrast, Config.contrast] ++
            [Config.cmdPrecharge, Config.precharge] ++ [Config.cmdVcomh, Config.vcomh] ++ [Config.cmdResumeRam] ++
            [Config.cmdNormalPolarity] ++ [Config.cmdScrollOff] ++ [Config.cmdAddrMode, Config.addrModeHorizontal] ++
            [Config.cmdChargePump, Config.chargePumpEnable]) ++
          [.delay Config.params.settleMs] ++ cmdEvents h a [Config.cmdDisplayOn])

/-- `INIT`'s argument check (R92): with a pin low the result is `InvalidArgument` and nothing else changes, whatever
the operands; with all pins high every address and handle is accepted. -/
def Obligations.InitChecksItsPins : Prop :=
  ∀ (s : State) (a : BusAddr) (h : BusHandle), Ready s →
    ((s.pins.transportPresent = false ∨ s.pins.timingPresent = false ∨ s.pins.transportCanWrite = false) →
      exec (.init a h) s = .next (onlyResult .invalidArgument s)) ∧
    (s.pins = ⟨true, true, true⟩ →
      ∃ t, exec (.init a h) s = .next t ∧ t.busAddr = a ∧ t.busHandle = h ∧ t.tpBound = true ∧ t.tmBound = true ∧
        t.trace ≠ s.trace)

/-- `INIT` whose write is answered `ERR(e)` (R94): at command write `k` of the bring-up writes, or at the last,
"display on": `IoError(e)`, uninitialised, the new handles, address and handle kept, `T` up to the failed write, no
delay and the old buffer in the first case, the delay and a cleared buffer in the second. -/
def Obligations.InitAbortsOnAFailedWrite : Prop :=
  ∀ (s : State) (a : BusAddr) (h : BusHandle) (e : IoErr) (rest : List Answer), Ready s →
    s.pins = ⟨true, true, true⟩ →
    (∀ k, k < s.params.bringup.flatten.length → s.answers = List.replicate k .ok ++ .err e :: rest →
      ∃ t, exec (.init a h) s = .next t ∧ EndedWith (.ioError e) s t ∧ t.initialized = false ∧
        t.busAddr = a ∧ t.busHandle = h ∧ t.tpBound = true ∧ t.tmBound = true ∧ SameBuffer s t ∧
        t.trace = s.trace ++ cmdEvents h a (s.params.bringup.flatten.take (k + 1)) ∧
        t.answers = rest ∧ t.delaysDone = s.delaysDone ∧ SameInputs s t) ∧
    (∀ n, s.answers = List.replicate s.params.bringup.flatten.length .ok ++ .err e :: rest → s.delaysDone = n + 1 →
      ∃ t, exec (.init a h) s = .next t ∧ EndedWith (.ioError e) s t ∧ t.initialized = false ∧
        t.busAddr = a ∧ t.busHandle = h ∧ t.tpBound = true ∧ t.tmBound = true ∧ (∀ x, Memory.read t.fb x = 0x00) ∧
        t.trace = s.trace ++ initTrace s.params h a ∧ t.answers = rest ∧ t.delaysDone = n ∧ SameInputs s t)

/-- Re-initialisation (R95): once its check passes, `INIT` does the same from every lifecycle state, whatever the
context held before. -/
def Obligations.InitIgnoresTheOldContext : Prop :=
  ∀ (s : State) (a : BusAddr) (h : BusHandle) (i tp tm : Bool) (a' : BusAddr) (h' : BusHandle), Ready s →
    s.pins = ⟨true, true, true⟩ →
    exec (.init a h) { s with initialized := i, tpBound := tp, tmBound := tm, busAddr := a', busHandle := h' } =
      exec (.init a h) s

/-- `DEINIT` (R96): the flag is cleared, then "display off" is sent; the bound bits, address, handle and buffer stay;
an error leaves the flag cleared; with a handle unbound nothing happens but `InvalidArgument`; it needs no
initialised context, so a second one does the same. -/
def Obligations.DeinitMarksThenSendsDisplayOff : Prop :=
  ∀ (s : State), Ready s →
    (∀ rest, s.tpBound = true → s.tmBound = true → s.answers = .ok :: rest →
      ∃ t, exec .deinit s = .next t ∧ EndedWith .ok s t ∧ t.initialized = false ∧
        t.tpBound = true ∧ t.tmBound = true ∧ t.busAddr = s.busAddr ∧ t.busHandle = s.busHandle ∧ SameBuffer s t ∧
        t.trace = s.trace ++ cmdEvents s.busHandle s.busAddr [s.params.cmdDisplayOff] ∧ t.answers = rest ∧
        t.delaysDone = s.delaysDone ∧ SameInputs s t) ∧
    (∀ e rest, s.tpBound = true → s.tmBound = true → s.answers = .err e :: rest →
      ∃ t, exec .deinit s = .next t ∧ EndedWith (.ioError e) s t ∧ t.initialized = false ∧
        t.tpBound = true ∧ t.tmBound = true ∧ t.busAddr = s.busAddr ∧ t.busHandle = s.busHandle ∧ SameBuffer s t ∧
        t.trace = s.trace ++ cmdEvents s.busHandle s.busAddr [s.params.cmdDisplayOff] ∧ t.answers = rest ∧
        t.delaysDone = s.delaysDone ∧ SameInputs s t) ∧
    ((s.tpBound = false ∨ s.tmBound = false) → exec .deinit s = .next (onlyResult .invalidArgument s))

/-- `POWER_ON` (R97): one command write, "display on"; no register and no buffer byte is written, initialised or
not; an error is passed on; with a handle unbound `InvalidArgument` and nothing else. -/
def Obligations.PowerOnSendsDisplayOn : Prop :=
  ∀ (s : State), Ready s →
    (∀ rest, s.tpBound = true → s.tmBound = true → s.answers = .ok :: rest →
      ∃ t, exec .powerOn s = .next t ∧ EndedWith .ok s t ∧ SameContext s t ∧ SameBuffer s t ∧
        t.trace = s.trace ++ cmdEvents s.busHandle s.busAddr [s.params.cmdDisplayOn] ∧ t.answers = rest ∧
        t.delaysDone = s.delaysDone ∧ SameInputs s t) ∧
    (∀ e rest, s.tpBound = true → s.tmBound = true → s.answers = .err e :: rest →
      ∃ t, exec .powerOn s = .next t ∧ EndedWith (.ioError e) s t ∧ SameContext s t ∧ SameBuffer s t ∧
        t.trace = s.trace ++ cmdEvents s.busHandle s.busAddr [s.params.cmdDisplayOn] ∧ t.answers = rest ∧
        t.delaysDone = s.delaysDone ∧ SameInputs s t) ∧
    ((s.tpBound = false ∨ s.tmBound = false) → exec .powerOn s = .next (onlyResult .invalidArgument s))

/-- `POWER_OFF` (R98): as `POWER_ON` with "display off"; an initialised context stays initialised. -/
def Obligations.PowerOffSendsDisplayOff : Prop :=
  ∀ (s : State), Ready s →
    (∀ rest, s.tpBound = true → s.tmBound = true → s.answers = .ok :: rest →
      ∃ t, exec .powerOff s = .next t ∧ EndedWith .ok s t ∧ SameContext s t ∧ SameBuffer s t ∧
        t.trace = s.trace ++ cmdEvents s.busHandle s.busAddr [s.params.cmdDisplayOff] ∧ t.answers = rest ∧
        t.delaysDone = s.delaysDone ∧ SameInputs s t) ∧
    (∀ e rest, s.tpBound = true → s.tmBound = true → s.answers = .err e :: rest →
      ∃ t, exec .powerOff s = .next t ∧ EndedWith (.ioError e) s t ∧ SameContext s t ∧ SameBuffer s t ∧
        t.trace = s.trace ++ cmdEvents s.busHandle s.busAddr [s.params.cmdDisplayOff] ∧ t.answers = rest ∧
        t.delaysDone = s.delaysDone ∧ SameInputs s t) ∧
    ((s.tpBound = false ∨ s.tmBound = false) → exec .powerOff s = .next (onlyResult .invalidArgument s))

/-- The handle check of `DEINIT`, `POWER_ON`, `POWER_OFF` (R99) reads the bound bits and not the live pins. -/
def Obligations.HandleCheckReadsTheBoundBits : Prop :=
  ∀ (s : State) (i : Instr), Ready s → (i = .deinit ∨ i = .powerOn ∨ i = .powerOff) →
    ((s.tpBound = false ∨ s.tmBound = false) → exec i s = .next (onlyResult .invalidArgument s)) ∧
    (s.tpBound = true → s.tmBound = true → ∃ t, exec i s = .next t ∧ t.trace ≠ s.trace) ∧
    (∀ p : Pins, exec i { s with pins := p } = mapNext (fun t => { t with pins := p }) (exec i s))

/-! ## The buffer -/

/-- `CLEAR` (R111): on an initialised context all 1024 bytes become 0x00 and nothing else changes but the result; on
an uninitialised one only the result changes; nothing is sent in either case. -/
def Obligations.ClearZeroFillsTheBuffer : Prop :=
  ∀ (s : State), Ready s →
    (s.initialized = true →
      ∃ m, exec .clear s = .next (onlyResult .ok { s with fb := m }) ∧ ∀ a, Memory.read m a = 0x00) ∧
    (s.initialized = false → exec .clear s = .next (onlyResult .invalidArgument s))

/-- `SET_PIXEL x, y, color` (R112): on an initialised context, with `x < 128` and `y < 64`, the byte at page `y / 8`,
column `x` becomes `old | m` or `old & ~m` with `m = 1 << (y % 8)`, every other byte and everything else but the
result stays; else only the result changes, to `InvalidArgument`. -/
def Obligations.SetPixelWritesOneByte : Prop :=
  ∀ (s : State) (x y : Byte) (c : Color), Ready s →
    (s.initialized = true → x.toNat < 128 → y.toNat < 64 →
      ∃ m, exec (.setPixel x y c) s = .next (onlyResult .ok { s with fb := m }) ∧
        (Memory.read m ((y.toNat / 8) * 128 + x.toNat) =
          match c with
          | .on => Memory.read s.fb ((y.toNat / 8) * 128 + x.toNat) ||| (1#8 <<< (y.toNat % 8))
          | .off => Memory.read s.fb ((y.toNat / 8) * 128 + x.toNat) &&& ~~~(1#8 <<< (y.toNat % 8))) ∧
        ∀ a, a ≠ (y.toNat / 8) * 128 + x.toNat → Memory.read m a = Memory.read s.fb a) ∧
    ((s.initialized = false ∨ 128 ≤ x.toNat ∨ 64 ≤ y.toNat) →
      exec (.setPixel x y c) s = .next (onlyResult .invalidArgument s))

/-- The read-modify-write law (R113): after a successful `SET_PIXEL x, y, c` the pixel is `c`, every other bit of its
byte is as before, and so is every other byte. -/
def Obligations.SetPixelChangesOnlyItsBit : Prop :=
  ∀ (s t : State) (x y : Byte) (c : Color), x.toNat < 128 → y.toNat < 64 → Ready s →
    exec (.setPixel x y c) s = .next t → t.lastResult = .ok →
    colorAt t.fb x y = c ∧
    (∀ j, j < 8 → j ≠ y.toNat % 8 →
      (Memory.read t.fb ((y.toNat / 8) * 128 + x.toNat)).getLsbD j =
        (Memory.read s.fb ((y.toNat / 8) * 128 + x.toNat)).getLsbD j) ∧
    (∀ a, a ≠ (y.toNat / 8) * 128 + x.toNat → Memory.read t.fb a = Memory.read s.fb a)

/-- Setting a pixel changes no other pixel of the panel (R22, R113): the addressing gives distinct pixels distinct
bits. -/
def Obligations.OtherPixelsKeepTheirColor : Prop :=
  ∀ (s t : State) (x y x' y' : Byte) (c : Color), x.toNat < 128 → y.toNat < 64 → x'.toNat < 128 → y'.toNat < 64 →
    (x ≠ x' ∨ y ≠ y') → Ready s → exec (.setPixel x y c) s = .next t →
    pixel t.fb x' y' = pixel s.fb x' y'

/-- Linear buffer addresses (R42), and where a pixel lives. -/
def Obligations.LinearAddressesAreRowMajor : Prop :=
  (∀ p c, p < 8 → c < 128 → linear p c = p * 128 + c ∧ linear p c < 1024 ∧
    linear p c / 128 = p ∧ linear p c % 128 = c) ∧
  (∀ a, a < 1024 → a / 128 < 8 ∧ linear (a / 128) (a % 128) = a ∧
    a / 128 = (BitVec.extractLsb' 7 3 (BitVec.ofNat 10 a)).toNat ∧
    a % 128 = (BitVec.extractLsb' 0 7 (BitVec.ofNat 10 a)).toNat) ∧
  (∀ (m : Memory) (x y : Byte),
    pixel m x y = (Memory.read m ((y.toNat / 8) * 128 + x.toNat)).getLsbD (y.toNat % 8))

/-- The precondition of the data-plane operations (R110, R147): on an uninitialised context `CLEAR`, `SET_PIXEL` and
`UPDATE_DISPLAY` end with `InvalidArgument`; no buffer byte changes and nothing is sent. -/
def Obligations.DataPlaneNeedsAnInitializedContext : Prop :=
  ∀ (s : State) (i : Instr), Ready s → s.initialized = false →
    (i = .clear ∨ (∃ x y c, i = .setPixel x y c) ∨ i = .updateDisplay) →
    exec i s = .next (onlyResult .invalidArgument s)

/-! ## The flush -/

/-- `UPDATE_DISPLAY` with every write answered `OK`: for each page the seven transactions of R142, in order and with
nothing between, and `OK`; the buffer, the context and the inputs stay. -/
def Obligations.FlushSendsEveryPage : Prop :=
  ∀ (s : State) (rest : List Answer), Ready s → s.initialized = true →
    s.answers = List.replicate 56 .ok ++ rest →
    ∃ t, exec .updateDisplay s = .next t ∧ EndedWith .ok s t ∧
      t.trace = s.trace ++ (List.range 8).flatMap (fun p => (List.range 7).map fun j =>
        Event.write s.busHandle s.busAddr (pageTransaction s p j).1 (pageTransaction s p j).2) ∧
      t.answers = rest ∧ t.delaysDone = s.delaysDone ∧ SameBuffer s t ∧ SameContext s t ∧ SameInputs s t

/-- The counting law (R145): what a flush that has ended appended to `T`. -/
def Obligations.FlushCountingLaw : Prop :=
  ∀ (s t : State), Ready s → exec .updateDisplay s = .next t → t.seq = .idle →
    ∃ new, t.trace = s.trace ++ new ∧ new.all (fun e => !e.isDelay) = true ∧
      (t.lastResult = .ok → new.length = 56 ∧
        (∀ k, k < 56 → new[k]? = some (flushEvent s k)) ∧
        (new.filter (Event.isOn .cmd)).length = 48 ∧ (∀ e ∈ new, e.isOn .cmd = true → e.bytes.length = 1) ∧
        (new.filter (Event.isOn .data)).length = 8 ∧ (∀ e ∈ new, e.isOn .data = true → e.bytes.length = 128) ∧
        (new.map fun e => e.bytes.length).sum = 1072) ∧
      (∀ e, t.lastResult = .ioError e → 1 ≤ new.length ∧ new.length ≤ 56 ∧
        ∃ rest, s.answers = List.replicate (new.length - 1) .ok ++ .err e :: rest) ∧
      (t.lastResult = .invalidArgument → new = [])

/-- Abort on the first failure (R143): when write `j` of the flush is the first answered `ERR(e)`, the result is
`IoError(e)`, `T` ends with the failed transaction after the `j` earlier ones, and nothing else is issued; at the
5th page's data write (`j` = 34) that is 30 command writes and 5 data writes. -/
def Obligations.FlushAbortsOnTheFirstFailure : Prop :=
  (∀ (s : State) (j : Nat) (e : IoErr) (rest : List Answer), Ready s → s.initialized = true → j < 56 →
    s.answers = List.replicate j .ok ++ .err e :: rest →
    ∃ t, exec .updateDisplay s = .next t ∧ EndedWith (.ioError e) s t ∧
      t.trace = s.trace ++ flushEvents s (j + 1) ∧
      t.answers = rest ∧ t.delaysDone = s.delaysDone ∧ SameBuffer s t ∧ SameContext s t ∧ SameInputs s t) ∧
  (∀ s : State,
    ((flushEvents s 35).filter (Event.isOn .cmd)).length = 30 ∧
    ((flushEvents s 35).filter (Event.isOn .data)).length = 5)

/-- A flush, however it ends or waits, changes neither the buffer nor the context (R146); it can simply be issued
again. -/
def Obligations.FlushLeavesTheBlockUnchanged : Prop :=
  ∀ (s t : State), exec .updateDisplay s = .next t →
    SameBuffer s t ∧ SameContext s t ∧ t.delaysDone = s.delaysDone ∧ SameInputs s t

/-! ## Errors, lifecycle, the trace -/

/-- An operation that ends with `InvalidArgument` has changed no register and no buffer byte and sent nothing: only
the result is new (R161). -/
def Obligations.InvalidArgumentChangesNothing : Prop :=
  ∀ (s t : State) (i : Instr), layerOf i = .hostCommand → Ready s → exec i s = .next t → t.seq = .idle →
    t.lastResult = .invalidArgument → t = onlyResult .invalidArgument s

/-- An operation that ends with `IoError(e)` passes on the first error the transport answered, and issues no write
after the one that failed (R162, R52 (b)). -/
def Obligations.IoErrorIsTheFirstErrorOfTheTransport : Prop :=
  ∀ (s t : State) (i : Instr) (e : IoErr), layerOf i = .hostCommand → Ready s → exec i s = .next t → t.seq = .idle →
    t.lastResult = .ioError e →
    ∃ n rest new, s.answers = List.replicate n .ok ++ .err e :: rest ∧ t.answers = rest ∧
      t.trace = s.trace ++ new ∧ (new.filter fun ev => !ev.isDelay).length = n + 1

/-- Every host operation that is accepted produces exactly one result, when it ends, and none while it waits (R63,
R160, R177). -/
def Obligations.OneResultForEachOperation : Prop :=
  ∀ (s t : State) (i : Instr), layerOf i = .hostCommand → Ready s → exec i s = .next t →
    (t.seq = .idle ∧ t.request = none ∧ t.responses = s.responses ++ [t.lastResult.word]) ∨
    (t.seq ≠ .idle ∧ t.request ≠ none ∧ t.responses = s.responses ∧ t.lastResult = s.lastResult)

/-- Transitions of the lifecycle (R172), operation by operation: only an `INIT` that returns `OK` leads to
INITIALIZED; `DEINIT` past its handle check, and `INIT` past its argument check that has not returned `OK`, lead out
of it, and no other operation does; reset does. The same of the single steps of a running operation, where a request
may have waited: only the last action of `INIT`, completed, sets the flag, only `DEINIT`'s and `INIT`'s first action
clears it. -/
def Obligations.LifecycleTransitions : Prop :=
  (∀ (s t : State) (i : Instr), Ready s → exec i s = .next t →
    (s.initialized = false → t.initialized = true →
      (∃ a h, i = .init a h) ∧ t.seq = .idle ∧ t.lastResult = .ok) ∧
    (i = .deinit → s.tpBound = true → s.tmBound = true → t.initialized = false) ∧
    ((∃ a h, i = .init a h) → s.pins = ⟨true, true, true⟩ →
      (t.initialized = true ↔ t.seq = .idle ∧ t.lastResult = .ok)) ∧
    (s.initialized = true → t.initialized = false →
      (i = .deinit ∧ s.tpBound = true ∧ s.tmBound = true) ∨
      ((∃ a h, i = .init a h) ∧ s.pins = ⟨true, true, true⟩ ∧ ¬(t.seq = .idle ∧ t.lastResult = .ok)))) ∧
  (∀ (s t : State) (op : Operation) (k : Nat), s.rst = false → s.seq = .run op k → step s = .next t →
    (s.initialized = false → t.initialized = true →
      (∃ a h, op = .init a h) ∧ (actions s.params op).length ≤ k + 1 ∧ t.seq = .idle ∧ t.lastResult = .ok) ∧
    (s.initialized = true → t.initialized = false →
      (actions s.params op)[k]? = some .unmark ∨ ∃ a h, (actions s.params op)[k]? = some (.bind a h))) ∧
  (∀ s : State, s.rst = true → ∃ t, step s = .next t ∧ t.initialized = false) ∧
  ∀ s : State, (applyInput (.rst true) s).initialized = false

/-- The buffer changes only in `INIT`, `CLEAR` and `SET_PIXEL` (R36), and in a step of the sequencer only at their
clear and pixel actions. -/
def Obligations.OnlyThreeOperationsWriteTheBuffer : Prop :=
  (∀ (s t : State) (i : Instr), exec i s = .next t → (∃ a, Memory.read t.fb a ≠ Memory.read s.fb a) →
    (∃ a h, i = .init a h) ∨ i = .clear ∨ ∃ x y c, i = .setPixel x y c) ∧
  (∀ (s t : State) (op : Operation) (k : Nat), s.rst = false → s.seq = .run op k → step s = .next t →
    (∃ a, Memory.read t.fb a ≠ Memory.read s.fb a) →
    (actions s.params op)[k]? = some .zeroFill ∨ ∃ x y c, (actions s.params op)[k]? = some (.plot x y c))

/-- The pins are read only in `INIT`'s argument check (R202, R30): every other instruction, `INIT` past its check,
and every step of a running operation do the same whatever the pins are. -/
def Obligations.PinsMatterOnlyToInit : Prop :=
  ∀ (s : State) (p : Pins),
    (∀ i, (∀ a h, i ≠ .init a h) →
      exec i { s with pins := p } = mapNext (fun t => { t with pins := p }) (exec i s)) ∧
    (∀ a h, pinsOk s = pinsOk { s with pins := p } →
      exec (.init a h) { s with pins := p } = mapNext (fun t => { t with pins := p }) (exec (.init a h) s)) ∧
    (∀ op k, s.rst = false → s.seq = .run op k →
      step { s with pins := p } = mapNext (fun t => { t with pins := p }) (step s))

/-- Every step only appends to `T`, and every transaction it appends has one byte on the command channel or 128 on
the data channel (R74, R52 (c)). -/
def Obligations.TransactionLengths : Prop :=
  ∀ (s t : State), step s = .next t →
    ∃ new, t.trace = s.trace ++ new ∧
      ∀ ev ∈ new, (ev.isOn .cmd = true → ev.bytes.length = 1) ∧ (ev.isOn .data = true → ev.bytes.length = 128)

/-- No instruction of the table stops: each answers a next state in every state. For the host operations on a ready
block this is R160; for a busy block (log 8), result words (log 9), selectors (log 10) and panel commands (logs 11
and 12) it is the model's reading. -/
def Obligations.EveryInstructionAnswersANextState : Prop :=
  ∀ (i : Instr) (s : State), ∃ t, exec i s = .next t

/-- A sound state takes no fault and is not refused (R41, R12, R73; log 24); and in every state a refusal is only at a
word on the result port or a selector that no instruction of the table has, by its own name (R70, R73; log 25). -/
def Obligations.SoundStatesDoNotStop : Prop :=
  (∀ s : State, Inv s → ∃ t, step s = .next t) ∧
  (∀ (s : State) (r : Refusal), step s = .refused r →
    ∃ rest, (∃ w, s.port = .result w :: rest ∧ decodeResult w = none ∧ r = .resultNeverProduced w) ∨
      (∃ b, s.port = .selector b :: rest ∧ decodeSelector b = none ∧ r = .selectorNeverSent b))

/-! ## The invariant -/

/-- The state after reset is sound. -/
def Obligations.ResetIsSound : Prop := Inv State.reset

/-- Every step of a sound state leads to a sound state: the memories keep their canonical forms, an initialised
context has its handles (R35), the sequencer stands at an action (R27), transactions have legal lengths (R74), the
block has its reset values while `rst` is asserted (R190), the result's error is one of `IoErr` (R8). The parameters
wired into the block stay (R8; log 32). -/
def Obligations.StepKeepsSoundness : Prop :=
  ∀ s t : State, Inv s → step s = .next t → Inv t ∧ t.params = s.params

/-- Nothing the outside can do makes a sound state unsound. -/
def Obligations.InputsKeepSoundness : Prop := ∀ (s : State) (e : Input), Inv s → Inv (applyInput e s)

/-- In every sound state an initialised context has both handles (R35). -/
def Obligations.InitializedContextHasItsHandles : Prop :=
  ∀ s : State, Inv s → s.initialized = true → s.tpBound = true ∧ s.tmBound = true ∧
    (Ready s → ∀ i, (i = .deinit ∨ i = .powerOn ∨ i = .powerOff) →
      exec i s ≠ .next (onlyResult .invalidArgument s))

/-! ## Result words, selectors, the panel (the model's reading: logs 9, 10, 11, 12) -/

/-- The result words end an operation: each answers the state with its result latched, the sequencer in `IDLE`,
nothing outstanding, its word out on the result port, and nothing else changed (R28, R167; log 9). -/
def Obligations.ResultWordsEndTheOperation : Prop :=
  ∀ (s : State) (e : IoErr),
    exec .resultOk s = .next { s with
      lastResult := .ok, seq := .idle, request := none, responses := s.responses ++ [0x0000#16] } ∧
    exec .resultInvalidArgument s = .next { s with
      lastResult := .invalidArgument, seq := .idle, request := none, responses := s.responses ++ [0x0100#16] } ∧
    exec (.resultIoError e) s = .next { s with
      lastResult := .ioError e, seq := .idle, request := none
      responses := s.responses ++ [0x0200#16 + e.setWidth 16] }

/-- The selectors select the register of the transport and change nothing else (R43; log 10). -/
def Obligations.SelectorsSelectTheChannel : Prop :=
  ∀ s : State, exec .selCmd s = .next { s with channel := .cmd } ∧ exec .selData s = .next { s with channel := .data }

/-- Each configuration command sets its own setting of the panel and changes nothing else (R78; logs 11, 12). -/
def Obligations.PanelSettingsAreSet : Prop :=
  ∀ (s : State) (v : Byte),
    exec (.panelClockDiv v) s = .next { s with panel := { s.panel with clockDiv := v } } ∧
    exec (.panelMuxRatio v) s = .next { s with panel := { s.panel with muxRatio := v } } ∧
    exec (.panelDisplayOffset v) s = .next { s with panel := { s.panel with displayOffset := v } } ∧
    exec .panelSegRemap s = .next { s with panel := { s.panel with segRemap := true } } ∧
    exec .panelComScanRev s = .next { s with panel := { s.panel with comScanReversed := true } } ∧
    exec (.panelComPins v) s = .next { s with panel := { s.panel with comPins := v } } ∧
    exec (.panelContrast v) s = .next { s with panel := { s.panel with contrast := v } } ∧
    exec (.panelPrecharge v) s = .next { s with panel := { s.panel with precharge := v } } ∧
    exec (.panelVcomh v) s = .next { s with panel := { s.panel with vcomh := v } } ∧
    exec .panelResumeRam s = .next { s with panel := { s.panel with followRam := true } } ∧
    exec .panelNormalPolarity s = .next { s with panel := { s.panel with normalPolarity := true } } ∧
    exec .panelScrollOff s = .next { s with panel := { s.panel with scrolling := false } } ∧
    exec (.panelAddrMode v) s = .next { s with panel := { s.panel with addrMode := v } } ∧
    exec (.panelChargePump v) s = .next { s with panel := { s.panel with chargePump := v } }

/-- "display on" and "display off" set the panel's on bit; the range commands set their range and put the cursor at
its start; nothing else changes (R181, informative; log 11). -/
def Obligations.PanelRangesAndPower : Prop :=
  ∀ (s : State) (a b : Byte),
    exec .panelDisplayOn s = .next { s with panel := { s.panel with on := true } } ∧
    exec .panelDisplayOff s = .next { s with panel := { s.panel with on := false } } ∧
    exec (.panelSetColRange a b) s = .next { s with panel := { s.panel with colLo := a, colHi := b, col := a } } ∧
    exec (.panelSetPageRange a b) s = .next { s with panel := { s.panel with pageLo := a, pageHi := b, page := a } }

/-- No panel command and no selector changes the block: its buffer, registers, sequencer, inputs and records stay
(R33: "Outside the block"), and no panel command changes the display memory. -/
def Obligations.PanelCommandsLeaveTheBlock : Prop :=
  ∀ (s : State) (i : Instr), layerOf i = .panelCommand ∨ layerOf i = .transportSelector →
    ∃ t, exec i s = .next t ∧ t = { s with panel := t.panel, channel := t.channel } ∧
      t.panel.pending = s.panel.pending ∧ (∀ p c, t.panel.byteAt p c = s.panel.byteAt p c) ∧
      (layerOf i = .panelCommand → t.channel = s.channel)

/-- One data byte in horizontal addressing mode with the cursor on the panel (R181, informative; log 11): it is stored
at the cursor, every other byte of the display memory stays, and the cursor goes on, from the last column of its range
to the first of the next page, from the last page to the first. -/
def Obligations.PanelStoresDataAtItsCursor : Prop :=
  ∀ (q : Panel) (v : Byte), q.addrMode = 0x00 → q.page.toNat < 8 → q.col.toNat < 128 →
    (q.dataByte v).byteAt q.page.toNat q.col.toNat = some v ∧
    (∀ p c, c < 128 → (p ≠ q.page.toNat ∨ c ≠ q.col.toNat) → (q.dataByte v).byteAt p c = q.byteAt p c) ∧
    (q.dataByte v).col = (if q.col = q.colHi then q.colLo else q.col + 1) ∧
    (q.dataByte v).page =
      (if q.col = q.colHi then (if q.page = q.pageHi then q.pageLo else q.page + 1) else q.page) ∧
    (q.dataByte v).pending = q.pending ∧ (q.dataByte v).on = q.on

/-- A panel with no unfinished command takes the bytes that follow a command byte as its parameters, whatever they are
and whatever they were sent for (G10; R203; log 16): every command of the table, at every value of its parameters, does
what `exec` does of it when its last byte has come, and until then is held and changes nothing else. An interruption leaves an unfinished
command, or the panel drops it (R203, U4; log 33), and touches nothing else but the count of free values. -/
def Obligations.UnfinishedCommandTakesTheNextBytes : Prop :=
  (∀ (s : State) (i : Instr), s.panel.pending = [] → layerOf i = .panelCommand →
    exec i s = .next { s with panel := (encode i).foldl Panel.cmdByte s.panel }) ∧
  (∀ (q : Panel) (i : Instr), q.pending = [] → layerOf i = .panelCommand →
    (encode i).foldl Panel.cmdByte q = Panel.effect i q ∧
    ∀ n, 1 ≤ n → n < (encode i).length →
      ((encode i).take n).foldl Panel.cmdByte q = { q with pending := (encode i).take n }) ∧
  (∀ (q : Panel) (a b : Byte), q.pending = [] →
    [Config.cmdSetColRange, a, b].foldl Panel.cmdByte q = { q with colLo := a, colHi := b, col := a } ∧
    [Config.cmdSetPageRange, a, b].foldl Panel.cmdByte q = { q with pageLo := a, pageHi := b, page := a }) ∧
  (∀ q : Panel, (q.pending = [] → q.interrupted = q) ∧
    ∃ d, q.interrupted = { q with draws := d } ∨ q.interrupted = { q with draws := d, pending := [] })

/-- A cursor-set pair followed by a burst puts the page on the panel (R181, informative; log 11): every column of the
page shows its byte and no other page changes. -/
def Obligations.CursorSetThenBurstShowsThePage : Prop :=
  ∀ (q : Panel) (m : Memory) (p : Nat), p < 8 → q.addrMode = 0x00 → q.pending = [] →
    let q' := (q.take .cmd (Config.cursorSet Config.params p)).take .data (pageRow m p)
    (∀ c, c < 128 → q'.byteAt p c = some (Memory.read m (p * 128 + c))) ∧
    (∀ p' c, c < 128 → p' ≠ p → q'.byteAt p' c = q.byteAt p' c) ∧
    q'.pending = [] ∧ q'.addrMode = 0x00 ∧ q'.on = q.on

/-- After a flush that returned `OK` the panel's display memory is the buffer (R144, R181, informative; log 11), if
the panel was in horizontal addressing mode with no unfinished command and the block's command bytes are the panel's
(log 3); its cursor stands at the start of the last page, and its settings and its on bit are as before. -/
def Obligations.CompletedFlushShowsTheBuffer : Prop :=
  ∀ (s t : State), s.params = Config.params → Ready s → s.panel.addrMode = 0x00 → s.panel.pending = [] →
    exec .updateDisplay s = .next t → t.seq = .idle → t.lastResult = .ok →
    (∀ p c, p < 8 → c < 128 → t.panel.byteAt p c = fbRead s p c) ∧ t.channel = .data ∧
    t.panel = { s.panel with
      ram := t.panel.ram, colLo := 0x00, colHi := 0x7F, pageLo := 0x07, pageHi := 0x07, col := 0x00, page := 0x07 }

/-- What an aborted flush leaves (R144, R181, informative; logs 3, 11, 15): when it fails at page action `j` of page `p`,
the earlier pages show the buffer, the later ones what they showed before, and page `p` too if the burst was not
reached. -/
def Obligations.AbortedFlushTearsTheImage : Prop :=
  ∀ (s t : State) (p j : Nat) (e : IoErr) (rest : List Answer), s.params = Config.params → Ready s →
    s.initialized = true → s.panel.addrMode = 0x00 → s.panel.pending = [] → p < 8 → j < 7 →
    s.answers = List.replicate (7 * p + j) .ok ++ .err e :: rest → exec .updateDisplay s = .next t →
    (∀ p' c, p' < p → c < 128 → t.panel.byteAt p' c = fbRead s p' c) ∧
    (∀ p' c, p < p' → p' < 8 → c < 128 → t.panel.byteAt p' c = s.panel.byteAt p' c) ∧
    (j ≤ 5 → ∀ c, c < 128 → t.panel.byteAt p c = s.panel.byteAt p c)

/-- A whole `INIT` leaves the panel on, in horizontal addressing mode, with the settings the bring-up sends, and its
display memory as it was (R197, R200; logs 3, 11, 12), if it had no unfinished command. -/
def Obligations.InitConfiguresThePanel : Prop :=
  ∀ (s t : State) (a : BusAddr) (h : BusHandle), s.params = Config.params → Ready s → s.panel.pending = [] →
    exec (.init a h) s = .next t → t.seq = .idle → t.lastResult = .ok →
    t.panel = { s.panel with
      clockDiv := Config.clockDiv, muxRatio := 0x3F, displayOffset := 0x00, segRemap := true
      comScanReversed := true, comPins := Config.comPins, contrast := Config.contrast
      precharge := Config.precharge, vcomh := Config.vcomh, followRam := true, normalPolarity := true
      scrolling := false, addrMode := 0x00, chargePump := Config.chargePumpEnable, on := true }

/-- What the panel sees of `POWER_ON`, `POWER_OFF` and `DEINIT` whose write was answered `OK` (R97, R98, R96, R181,
informative; logs 3, 11), if it had no unfinished command: its on bit, and nothing else of it. -/
def Obligations.PowerCommandsReachThePanel : Prop :=
  ∀ (s : State) (rest : List Answer), s.params = Config.params → Ready s → s.tpBound = true → s.tmBound = true →
    s.answers = .ok :: rest → s.panel.pending = [] →
    (∃ t, exec .powerOn s = .next t ∧ t.panel = { s.panel with on := true } ∧ t.channel = .cmd) ∧
    (∃ t, exec .powerOff s = .next t ∧ t.panel = { s.panel with on := false } ∧ t.channel = .cmd) ∧
    (∃ t, exec .deinit s = .next t ∧ t.panel = { s.panel with on := false } ∧ t.channel = .cmd)

/-- The block never notices the panel (R33, R204): host operations and the steps of a running one do the same whatever
the panel holds; a power cycle of the panel alone changes nothing but the panel, of whose memory nothing is known then
(logs 13, 34). -/
def Obligations.BlockNeverNoticesThePanel : Prop :=
  (∀ (s : State) (q : Panel) (i : Instr), layerOf i = .hostCommand →
    ∃ q', exec i { s with panel := q } = mapNext (fun t => { t with panel := q' }) (exec i s)) ∧
  (∀ (s : State) (q : Panel) (op : Operation) (k : Nat), s.rst = false → s.seq = .run op k →
    ∃ q', step { s with panel := q } = mapNext (fun t => { t with panel := q' }) (step s)) ∧
  (∀ s : State, applyInput .panelPowerCycle s = { s with panel := s.panel.powerCycle } ∧
    ∀ p c, s.panel.powerCycle.byteAt p c = none)

/-! ## The software layer -/

/-- `fill_rect` (R123), as the list of operations it issues (the model's reading: logs 21 and 29): out of bounds or
uninitialised it is `InvalidArgument`; else exactly `w × h` operations, each a `SET_PIXEL`, after which every pixel of the rectangle has the colour and every other pixel is as before. -/
def Obligations.FillRectFillsItsRectangle : Prop :=
  ∀ (s : State) (x y w h : Nat) (c : Color), Ready s →
    (s.initialized = true → 1 ≤ w → 1 ≤ h → x + w ≤ 128 → y + h ≤ 64 →
      ∃ ops t, fillRect s x y w h c = some ops ∧ ops.length = w * h ∧
        (∀ i ∈ ops, ∃ px py, i = .setPixel px py c) ∧ issueAll ops s = .next t ∧
        t.trace = s.trace ∧ SameContext s t ∧
        ∀ px py : Byte, px.toNat < 128 → py.toNat < 64 →
          ((x ≤ px.toNat ∧ px.toNat < x + w ∧ y ≤ py.toNat ∧ py.toNat < y + h) → colorAt t.fb px py = c) ∧
          (¬(x ≤ px.toNat ∧ px.toNat < x + w ∧ y ≤ py.toNat ∧ py.toNat < y + h) →
            colorAt t.fb px py = colorAt s.fb px py)) ∧
    ((s.initialized = false ∨ w = 0 ∨ h = 0 ∨ 128 ≤ x ∨ 64 ≤ y ∨ 128 < x + w ∨ 64 < y + h) →
      fillRect s x y w h c = none)

/-- Every routine of the software layer issues only `SET_PIXEL` operations of pixels of the panel, on an initialised
context, so that each succeeds; it sends nothing and can return no `IoError` (R120, R128, R131; logs 21 and 29). -/
def Obligations.SoftwareIssuesOnlySetPixel : Prop :=
  ∀ (s : State) (ops : List Instr) (c : Color),
    ((∃ x0 y0 x1 y1, drawLine s x0 y0 x1 y1 c = some ops) ∨ (∃ x y w h, drawRectOutline s x y w h c = some ops) ∨
      (∃ x y w h, fillRect s x y w h c = some ops) ∨ (∃ x y ch f, drawChar s x y ch f c = some ops) ∨
      (∃ x y text f, drawString s x y text f c = some ops) ∨ (∃ x y v f, drawUnsigned s x y v f c = some ops) ∨
      (∃ x y v f, drawSigned s x y v f c = some ops)) →
    s.initialized = true ∧ ∀ i ∈ ops, ∃ x y, i = .setPixel x y c ∧ x.toNat < 128 ∧ y.toNat < 64
end

