-- ==== Sys2Proof/Laws/Decode.lean ====
section
/-! SUPPORT. The words of each layer as bytes and back, and what the decoders answer. -/

namespace Sys2Proof

/-- The four bytes of a command word, put together again, are the word. -/
theorem word32_of_bytes (w : Word32) :
    (w.extractLsb' 24 8 ++ w.extractLsb' 16 8 ++ w.extractLsb' 8 8 ++ w.extractLsb' 0 8 : Word32) = w := by
  apply BitVec.eq_of_getLsbD_eq
  intro i hi
  simp only [BitVec.getLsbD_append, BitVec.getLsbD_extractLsb']
  split_ifs <;> simp <;> grind

/-- The two bytes of a result word, put together again, are the word. -/
theorem word16_of_bytes (w : Word16) : (w.extractLsb' 8 8 ++ w.extractLsb' 0 8 : Word16) = w := by
  apply BitVec.eq_of_getLsbD_eq
  intro i hi
  simp only [BitVec.getLsbD_append, BitVec.getLsbD_extractLsb']
  split_ifs <;> simp <;> grind

/-- Decoding a command word's bytes is decoding the word. -/
@[simp] theorem decode_bytesOfWord32 (w : Word32) (rest : List Byte) :
    decode .hostCommand (bytesOfWord32 w ++ rest) = decodedOr .illegalCommandWord rest (decodeCommand w) := by
  show decodedOr _ _ (decodeCommand _) = _
  rw [word32_of_bytes]; rfl

/-- Decoding a result word's bytes is decoding the word. -/
@[simp] theorem decode_bytesOfWord16 (w : Word16) (rest : List Byte) :
    decode .hostResult (bytesOfWord16 w ++ rest) = decodedOr .resultNeverProduced rest (decodeResult w) := by
  show decodedOr _ _ (decodeResult _) = _
  rw [word16_of_bytes]; rfl

/-- No command begins with nothing. -/
@[simp] theorem decodePanel_nil : decodePanel [] = .reject .truncated := rfl

end Sys2Proof
end

