-- ==== Sys2Proof/Laws/Memory.lean ====
section
/-! SUPPORT. Memories: read after write, the canonical form and that every operation keeps it. -/

namespace Sys2Proof.Machine

open Sys2Proof

/-! ## What is listed -/

@[simp] theorem Memory.lookup_nil (a : Nat) : Memory.lookup [] a = none := rfl

@[simp] theorem Memory.lookup_insert_same (m : Memory) (a : Nat) (v : Byte) :
    (m.insert a v).lookup a = some v := by
  induction m with
  | nil => simp [Memory.insert, Memory.lookup]
  | cons cell rest ih =>
    obtain ⟨b, u⟩ := cell
    simp only [Memory.insert]
    split_ifs with h1 h2
    · simp [Memory.lookup]
    · simp [Memory.lookup]
    · simp [Memory.lookup, ih, Ne.symm h2]

theorem Memory.lookup_insert_ne (m : Memory) {a b : Nat} (v : Byte) (h : b ≠ a) :
    (m.insert a v).lookup b = m.lookup b := by
  induction m with
  | nil => simp [Memory.insert, Memory.lookup, Ne.symm h]
  | cons cell rest ih =>
    obtain ⟨c, u⟩ := cell
    simp only [Memory.insert]
    split_ifs with h1 h2
    · simp [Memory.lookup, Ne.symm h]
    · subst h2; simp [Memory.lookup, Ne.symm h]
    · simp [Memory.lookup, ih]

@[simp] theorem Memory.lookup_erase_same (m : Memory) (a : Nat) : (m.erase a).lookup a = none := by
  induction m with
  | nil => rfl
  | cons cell rest ih =>
    obtain ⟨c, u⟩ := cell
    by_cases hc : c = a <;> simp [Memory.erase, Memory.lookup, hc, ih]

theorem Memory.lookup_erase_ne (m : Memory) {a b : Nat} (h : b ≠ a) : (m.erase a).lookup b = m.lookup b := by
  induction m with
  | nil => rfl
  | cons cell rest ih =>
    obtain ⟨c, u⟩ := cell
    by_cases hc : c = a
    · subst hc; simp [Memory.erase, Memory.lookup, ih, Ne.symm h]
    · simp [Memory.erase, Memory.lookup, hc, ih]

/-! ## Reads of the frame buffer -/

@[simp] theorem Memory.read_nil (a : Nat) : Memory.read [] a = 0 := rfl

@[simp] theorem Memory.read_write_same (m : Memory) (a : Nat) (v : Byte) : (m.write a v).read a = v := by
  by_cases h : v = 0#8 <;> simp [Memory.write, Memory.read, h]

theorem Memory.read_write_ne (m : Memory) {a b : Nat} (v : Byte) (h : b ≠ a) : (m.write a v).read b = m.read b := by
  by_cases hv : v = 0#8 <;> simp [Memory.write, Memory.read, hv, lookup_insert_ne m v h, lookup_erase_ne m h]

/-! ## The canonical form -/

theorem Memory.risingFrom_mono {m : Memory} {low low' : Nat} (h : low' ≤ low) (hm : m.risingFrom low = true) :
    m.risingFrom low' = true := by
  cases m with
  | nil => rfl
  | cons cell rest =>
    obtain ⟨a, v⟩ := cell
    simp only [Memory.risingFrom, Bool.and_eq_true, decide_eq_true_eq] at hm ⊢
    exact ⟨by omega, hm.2⟩

theorem Memory.risingFrom_insert {m : Memory} {low a : Nat} (v : Byte) (hl : low ≤ a)
    (hm : m.risingFrom low = true) : (m.insert a v).risingFrom low = true := by
  induction m generalizing low with
  | nil => simp [Memory.insert, Memory.risingFrom, hl]
  | cons cell rest ih =>
    obtain ⟨b, u⟩ := cell
    simp only [Memory.risingFrom, Bool.and_eq_true, decide_eq_true_eq] at hm
    simp only [Memory.insert]
    split_ifs with h1 h2
    · simp [Memory.risingFrom, hl, h1, hm.2]
    · subst h2; simp [Memory.risingFrom, hl, hm.2]
    · simp [Memory.risingFrom, hm.1, ih (by omega : b + 1 ≤ a) hm.2]

theorem Memory.risingFrom_erase {m : Memory} {low : Nat} (a : Nat) (hm : m.risingFrom low = true) :
    (m.erase a).risingFrom low = true := by
  induction m generalizing low with
  | nil => rfl
  | cons cell rest ih =>
    obtain ⟨b, u⟩ := cell
    simp only [Memory.risingFrom, Bool.and_eq_true, decide_eq_true_eq] at hm
    by_cases hb : b = a
    · simp only [Memory.erase, hb, if_true]
      exact ih (Memory.risingFrom_mono (by omega) hm.2)
    · simp [Memory.erase, hb, Memory.risingFrom, hm.1, ih hm.2]

theorem Memory.all_insert {m : Memory} {p : Host.Cell → Bool} {a : Nat} {v : Byte} (hp : p (a, v) = true)
    (hm : m.all p = true) : (m.insert a v).all p = true := by
  induction m with
  | nil => simp [Memory.insert, hp]
  | cons cell rest ih =>
    obtain ⟨b, u⟩ := cell
    simp only [List.all_cons, Bool.and_eq_true] at hm
    simp only [Memory.insert]
    split_ifs with h1 h2
    · simp only [List.all_cons, Bool.and_eq_true]; exact ⟨hp, hm⟩
    · simp only [List.all_cons, Bool.and_eq_true]; exact ⟨hp, hm.2⟩
    · simp only [List.all_cons, Bool.and_eq_true]; exact ⟨hm.1, ih hm.2⟩

theorem Memory.all_erase {m : Memory} {p : Host.Cell → Bool} (a : Nat) (hm : m.all p = true) :
    (m.erase a).all p = true := by
  induction m with
  | nil => rfl
  | cons cell rest ih =>
    obtain ⟨b, u⟩ := cell
    simp only [List.all_cons, Bool.and_eq_true] at hm
    by_cases hb : b = a
    · simpa [Memory.erase, hb] using ih hm.2
    · simp only [Memory.erase, hb, if_false, List.all_cons, Bool.and_eq_true]; exact ⟨hm.1, ih hm.2⟩

theorem Memory.rising_insert {m : Memory} (a : Nat) (v : Byte) (hm : m.rising = true) :
    (m.insert a v).rising = true := Memory.risingFrom_insert v (Nat.zero_le a) hm

theorem Memory.rising_erase {m : Memory} (a : Nat) (hm : m.rising = true) : (m.erase a).rising = true :=
  Memory.risingFrom_erase a hm

theorem Memory.inSpace_insert {m : Memory} {a : Nat} (v : Byte) (ha : a < 1024) (hm : m.inSpace = true) :
    (m.insert a v).inSpace = true := Memory.all_insert (decide_eq_true ha) hm

theorem Memory.inSpace_erase {m : Memory} (a : Nat) (hm : m.inSpace = true) : (m.erase a).inSpace = true :=
  Memory.all_erase a hm

@[simp] theorem Memory.wf_nil : Memory.wf [] = true := rfl

/-- A write of the frame buffer keeps the canonical form. -/
theorem Memory.wf_write {m : Memory} {a : Nat} (v : Byte) (ha : a < 1024) (hm : m.wf = true) :
    (m.write a v).wf = true := by
  simp only [Memory.wf, Bool.and_eq_true] at hm ⊢
  obtain ⟨⟨hr, hs⟩, hz⟩ := hm
  unfold Memory.write
  split_ifs with hv
  · exact ⟨⟨rising_erase a hr, inSpace_erase a hs⟩, Memory.all_erase a hz⟩
  · exact ⟨⟨rising_insert a v hr, inSpace_insert v ha hs⟩, Memory.all_insert (by simpa using hv) hz⟩

/-- The memory after reset is in canonical form. -/
theorem State.reset_fb_wf : State.reset.fb.wf = true := rfl

theorem Memory.lookup_eq_none_of_lt {m : Memory} {low a : Nat} (hm : m.risingFrom low = true) (ha : a < low) :
    m.lookup a = none := by
  induction m generalizing low with
  | nil => rfl
  | cons cell rest ih =>
    obtain ⟨b, u⟩ := cell
    simp only [Memory.risingFrom, Bool.and_eq_true, decide_eq_true_eq] at hm
    have hb : b ≠ a := by omega
    simp [Memory.lookup, hb, ih hm.2 (by omega : a < b + 1)]

/-- Memories of one order that list the same are the same. -/
theorem Memory.eq_of_lookup {m m' : Memory} {low low' : Nat} (hm : m.risingFrom low = true)
    (hm' : m'.risingFrom low' = true) (h : ∀ a, m.lookup a = m'.lookup a) : m = m' := by
  induction m generalizing low low' m' with
  | nil =>
    cases m' with
    | nil => rfl
    | cons cell' rest' => have := h cell'.1; simp [Memory.lookup] at this
  | cons cell rest ih =>
    obtain ⟨b, u⟩ := cell
    simp only [Memory.risingFrom, Bool.and_eq_true, decide_eq_true_eq] at hm
    cases m' with
    | nil => have := h b; simp [Memory.lookup] at this
    | cons cell' rest' =>
      obtain ⟨b', u'⟩ := cell'
      simp only [Memory.risingFrom, Bool.and_eq_true, decide_eq_true_eq] at hm'
      have hbb : b = b' := by
        by_contra hne
        rcases Nat.lt_or_gt_of_ne hne with hlt | hgt
        · have := h b
          simp [Memory.lookup, Ne.symm hne, lookup_eq_none_of_lt hm'.2 (by omega : b < b' + 1)] at this
        · have := h b'
          simp [Memory.lookup, hne, lookup_eq_none_of_lt hm.2 (by omega : b' < b + 1)] at this
      subst hbb
      have huu : u = u' := by have := h b; simpa [Memory.lookup] using this
      subst huu
      refine congrArg _ (ih hm.2 hm'.2 fun a => ?_)
      by_cases hab : b = a
      · subst hab
        rw [lookup_eq_none_of_lt hm.2 (by omega), lookup_eq_none_of_lt hm'.2 (by omega)]
      · have := h a; simpa [Memory.lookup, hab] using this

/-! ## Addresses -/

theorem linear_lt {p c : Nat} (hp : p < 8) (hc : c < 128) : linear p c < 1024 := by
  simp only [linear, Config.width]; omega

theorem linear_inj {p c p' c' : Nat} (hc : c < 128) (hc' : c' < 128) :
    linear p c = linear p' c' ↔ p = p' ∧ c = c' := by
  simp only [linear, Config.width]; omega

@[simp] theorem pageRow_length (m : Memory) (p : Nat) : (pageRow m p).length = 128 := by
  simp [pageRow, Config.width]

theorem pageRow_getElem? (m : Memory) (p : Nat) {c : Nat} (hc : c < 128) :
    (pageRow m p)[c]? = some (Memory.read m (linear p c)) := by
  simp [pageRow, Config.width, hc]

end Sys2Proof.Machine
end

