-- ==== Sys2Proof/Laws/Panel.lean ====
section
/-! SUPPORT. What the panel's operations do, and that each keeps its invariant. -/

namespace Sys2Proof.Machine

open Sys2Proof

@[simp] theorem decodePanel_unfinished (bs : List Byte) : decodePanel (unfinished bs) = .reject .truncated := by
  unfold unfinished
  split
  · assumption
  · rfl
  · rfl

/-! ## Commands -/

@[simp] theorem Panel.effect_ram (i : Instr) (q : Panel) : (Panel.effect i q).ram = q.ram := by cases i <;> rfl
@[simp] theorem Panel.effect_pending (i : Instr) (q : Panel) : (Panel.effect i q).pending = q.pending := by
  cases i <;> rfl
@[simp] theorem Panel.effect_draws (i : Instr) (q : Panel) : (Panel.effect i q).draws = q.draws := by cases i <;> rfl

/-- The bytes so far are a whole command: it acts and nothing stays unfinished. -/
theorem Panel.received_instr {bs rest : List Byte} {i : Instr} (q : Panel) (h : decodePanel bs = .instr i rest) :
    q.received bs = Panel.effect i { q with pending := [] } := by simp [Panel.received, h]

/-- The bytes so far are an unfinished command: they are kept. -/
theorem Panel.received_truncated {bs : List Byte} (q : Panel) (h : decodePanel bs = .reject .truncated) :
    q.received bs = { q with pending := bs } := by simp [Panel.received, h]

/-! ## Interruption and power -/

/-- A panel with no unfinished command is not touched by an interruption. -/
theorem Panel.interrupted_of_none {q : Panel} (h : q.pending = []) : q.interrupted = q := by
  simp [Panel.interrupted, h]

/-- An interruption keeps the unfinished command or drops it, and touches nothing else but the counter of draws. -/
theorem Panel.interrupted_cases (q : Panel) :
    q.interrupted = q ∨ q.interrupted = { q with draws := q.draws + 1 } ∨
      q.interrupted = { q with pending := [], draws := q.draws + 1 } := by
  unfold Panel.interrupted
  split
  · exact .inl rfl
  · split_ifs
    · exact .inr (.inr rfl)
    · exact .inr (.inl rfl)

@[simp] theorem Panel.interrupted_ram (q : Panel) : q.interrupted.ram = q.ram := by
  rcases q.interrupted_cases with h | h | h <;> rw [h]

/-! ## The cursor -/

@[simp] theorem Panel.advance_ram (q : Panel) : q.advance.ram = q.ram := by unfold Panel.advance; split <;> rfl
@[simp] theorem Panel.advance_pending (q : Panel) : q.advance.pending = q.pending := by
  unfold Panel.advance; split <;> rfl
@[simp] theorem Panel.advance_addrMode (q : Panel) : q.advance.addrMode = q.addrMode := by
  unfold Panel.advance; split <;> rfl
@[simp] theorem Panel.advance_on (q : Panel) : q.advance.on = q.on := by unfold Panel.advance; split <;> rfl

theorem Panel.cursor_lt {q : Panel} (h : q.cursorOnPanel = true) : q.cursor < 1024 := by
  have h' := (Bool.and_eq_true _ _).mp h
  exact linear_lt (of_decide_eq_true h'.1) (of_decide_eq_true h'.2)

@[simp] theorem Panel.dataByte_pending (q : Panel) (v : Byte) : (q.dataByte v).pending = q.pending := by
  unfold Panel.dataByte Panel.store Panel.lostCursor
  split_ifs <;> simp

@[simp] theorem Panel.smearByte_pending (q : Panel) (v : Byte) : (q.smearByte v).pending = q.pending := by
  unfold Panel.smearByte Panel.lostCursor
  split_ifs <;> simp

/-! ## The invariant -/

/-- The order and the bounds of the display memory. -/
abbrev Panel.ramOk (q : Panel) : Prop := q.ram.rising = true ∧ q.ram.inSpace = true

theorem Panel.wf_iff (q : Panel) :
    q.wf = true ↔ q.ramOk ∧ decodePanel q.pending = .reject .truncated := by
  simp [Panel.wf, Panel.ramOk, and_assoc]

theorem Panel.reset_wf : Panel.reset.wf = true := rfl

theorem Panel.scramble_wf (q : Panel) : q.scramble.wf = true :=
  (Panel.wf_iff _).2 ⟨⟨rfl, rfl⟩, decodePanel_unfinished _⟩

theorem Panel.received_wf {q : Panel} (bs : List Byte) (h : q.ramOk) : (q.received bs).wf = true := by
  unfold Panel.received
  split
  · exact (Panel.wf_iff _).2 ⟨by simpa [Panel.ramOk] using h, by simp⟩
  · rename_i hd; exact (Panel.wf_iff _).2 ⟨h, hd⟩
  · exact q.scramble_wf

theorem Panel.cmdByte_wf {q : Panel} (b : Byte) (h : q.wf = true) : (q.cmdByte b).wf = true :=
  Panel.received_wf _ ((Panel.wf_iff q).1 h).1

theorem Panel.dataByte_wf {q : Panel} (v : Byte) (h : q.wf = true) : (q.dataByte v).wf = true := by
  obtain ⟨⟨hr, hs⟩, hp⟩ := (Panel.wf_iff q).1 h
  refine (Panel.wf_iff _).2 ⟨?_, by simpa using hp⟩
  unfold Panel.dataByte Panel.store Panel.lostCursor
  split_ifs with h1 h2
  · simpa [Panel.ramOk] using
      And.intro (Memory.rising_insert _ v hr) (Memory.inSpace_insert v (Panel.cursor_lt h2) hs)
  · simp [Panel.ramOk, Memory.rising, Memory.risingFrom, Memory.inSpace]
  · simp [Panel.ramOk, Memory.rising, Memory.risingFrom, Memory.inSpace]

theorem Panel.smearByte_wf {q : Panel} (v : Byte) (h : q.wf = true) : (q.smearByte v).wf = true := by
  obtain ⟨⟨hr, hs⟩, hp⟩ := (Panel.wf_iff q).1 h
  refine (Panel.wf_iff _).2 ⟨?_, by simpa using hp⟩
  unfold Panel.smearByte Panel.lostCursor
  split_ifs with h1 h2
  · simpa [Panel.ramOk] using And.intro (Memory.rising_erase q.cursor hr) (Memory.inSpace_erase q.cursor hs)
  · simp [Panel.ramOk, Memory.rising, Memory.risingFrom, Memory.inSpace]
  · simp [Panel.ramOk, Memory.rising, Memory.risingFrom, Memory.inSpace]

theorem Panel.tornCmdByte_wf {q : Panel} (b : Byte) (h : q.wf = true) : (q.tornCmdByte b).wf = true := by
  unfold Panel.tornCmdByte
  split
  · exact Panel.cmdByte_wf (q := { q with draws := q.draws + 1 }) b h
  · exact h

/-- A fold of bytes over the panel keeps what each byte keeps. -/
theorem Panel.foldl_wf {f : Panel → Byte → Panel} (hf : ∀ q b, q.wf = true → (f q b).wf = true) (bytes : List Byte)
    {q : Panel} (h : q.wf = true) : (bytes.foldl f q).wf = true := by
  induction bytes generalizing q with
  | nil => exact h
  | cons b rest ih => exact ih (hf q b h)

/-- A write the panel took keeps its invariant. -/
theorem Panel.take_wf (sel : Selector) (bytes : List Byte) {q : Panel} (h : q.wf = true) :
    (q.take sel bytes).wf = true := by
  cases sel
  · exact Panel.foldl_wf (fun _ b => Panel.cmdByte_wf b) bytes h
  · exact Panel.foldl_wf (fun _ b => Panel.dataByte_wf b) bytes h

/-- An interruption keeps the panel's invariant. -/
theorem Panel.interrupted_wf {q : Panel} (h : q.wf = true) : q.interrupted.wf = true := by
  rcases q.interrupted_cases with h' | h' | h' <;> rw [h']
  · exact h
  · exact h
  · exact (Panel.wf_iff _).2 ⟨((Panel.wf_iff q).1 h).1, rfl⟩

theorem Panel.powerCycle_wf (q : Panel) : q.powerCycle.wf = true := rfl

/-- A torn burst keeps the panel's invariant. -/
theorem Panel.tornBurst_wf (bytes : List Byte) {q : Panel} (h : q.wf = true) : (q.tornBurst bytes).wf = true := by
  have h1 := (Panel.wf_iff _).1 (Panel.foldl_wf (fun _ b => Panel.smearByte_wf b) bytes h)
  have h2 := (Panel.wf_iff _).1
    (Panel.foldl_wf (fun _ b => Panel.smearByte_wf b) (bytes.take (Config.burstPrefix q.draws)) h)
  exact (Panel.wf_iff _).2 ⟨h1.1, h2.2⟩

/-- A torn write keeps the panel's invariant. -/
theorem Panel.torn_wf (sel : Selector) (bytes : List Byte) {q : Panel} (h : q.wf = true) :
    (q.torn sel bytes).wf = true := by
  cases sel
  · exact Panel.interrupted_wf (Panel.foldl_wf (fun _ b => Panel.tornCmdByte_wf b) bytes h)
  · exact Panel.interrupted_wf (Panel.tornBurst_wf bytes h)

/-- A complete command keeps the panel's invariant. -/
theorem Panel.effect_wf (i : Instr) {q : Panel} (h : q.wf = true) : (Panel.effect i q).wf = true := by
  obtain ⟨hr, hp⟩ := (Panel.wf_iff q).1 h
  exact (Panel.wf_iff _).2 ⟨by simpa [Panel.ramOk] using hr, by simpa using hp⟩

end Sys2Proof.Machine
end

