-- ==== Sys2Proof/Laws/State.lean ====
section
/-! SUPPORT. One lemma per field per update of the state, so that no proof unfolds a record update. -/

namespace Sys2Proof.Machine

open Sys2Proof

variable (s : State)

/-! ## `setFb` -/

@[simp] theorem setFb_params (m : Memory) : (setFb m s).params = s.params := rfl
@[simp] theorem setFb_fb (m : Memory) : (setFb m s).fb = m := rfl
@[simp] theorem setFb_initialized (m : Memory) : (setFb m s).initialized = s.initialized := rfl
@[simp] theorem setFb_busAddr (m : Memory) : (setFb m s).busAddr = s.busAddr := rfl
@[simp] theorem setFb_busHandle (m : Memory) : (setFb m s).busHandle = s.busHandle := rfl
@[simp] theorem setFb_tpBound (m : Memory) : (setFb m s).tpBound = s.tpBound := rfl
@[simp] theorem setFb_tmBound (m : Memory) : (setFb m s).tmBound = s.tmBound := rfl
@[simp] theorem setFb_seq (m : Memory) : (setFb m s).seq = s.seq := rfl
@[simp] theorem setFb_lastResult (m : Memory) : (setFb m s).lastResult = s.lastResult := rfl
@[simp] theorem setFb_request (m : Memory) : (setFb m s).request = s.request := rfl
@[simp] theorem setFb_pins (m : Memory) : (setFb m s).pins = s.pins := rfl
@[simp] theorem setFb_rst (m : Memory) : (setFb m s).rst = s.rst := rfl
@[simp] theorem setFb_port (m : Memory) : (setFb m s).port = s.port := rfl
@[simp] theorem setFb_answers (m : Memory) : (setFb m s).answers = s.answers := rfl
@[simp] theorem setFb_delaysDone (m : Memory) : (setFb m s).delaysDone = s.delaysDone := rfl
@[simp] theorem setFb_trace (m : Memory) : (setFb m s).trace = s.trace := rfl
@[simp] theorem setFb_responses (m : Memory) : (setFb m s).responses = s.responses := rfl
@[simp] theorem setFb_channel (m : Memory) : (setFb m s).channel = s.channel := rfl
@[simp] theorem setFb_panel (m : Memory) : (setFb m s).panel = s.panel := rfl

/-! ## `bindContext` -/

@[simp] theorem bindContext_params (a : BusAddr) (h : BusHandle) : (bindContext a h s).params = s.params := rfl
@[simp] theorem bindContext_fb (a : BusAddr) (h : BusHandle) : (bindContext a h s).fb = s.fb := rfl
@[simp] theorem bindContext_initialized (a : BusAddr) (h : BusHandle) : (bindContext a h s).initialized = false := rfl
@[simp] theorem bindContext_busAddr (a : BusAddr) (h : BusHandle) : (bindContext a h s).busAddr = a := rfl
@[simp] theorem bindContext_busHandle (a : BusAddr) (h : BusHandle) : (bindContext a h s).busHandle = h := rfl
@[simp] theorem bindContext_tpBound (a : BusAddr) (h : BusHandle) : (bindContext a h s).tpBound = true := rfl
@[simp] theorem bindContext_tmBound (a : BusAddr) (h : BusHandle) : (bindContext a h s).tmBound = true := rfl
@[simp] theorem bindContext_seq (a : BusAddr) (h : BusHandle) : (bindContext a h s).seq = s.seq := rfl
@[simp] theorem bindContext_lastResult (a : BusAddr) (h : BusHandle) : (bindContext a h s).lastResult = s.lastResult := rfl
@[simp] theorem bindContext_request (a : BusAddr) (h : BusHandle) : (bindContext a h s).request = s.request := rfl
@[simp] theorem bindContext_pins (a : BusAddr) (h : BusHandle) : (bindContext a h s).pins = s.pins := rfl
@[simp] theorem bindContext_rst (a : BusAddr) (h : BusHandle) : (bindContext a h s).rst = s.rst := rfl
@[simp] theorem bindContext_port (a : BusAddr) (h : BusHandle) : (bindContext a h s).port = s.port := rfl
@[simp] theorem bindContext_answers (a : BusAddr) (h : BusHandle) : (bindContext a h s).answers = s.answers := rfl
@[simp] theorem bindContext_delaysDone (a : BusAddr) (h : BusHandle) : (bindContext a h s).delaysDone = s.delaysDone := rfl
@[simp] theorem bindContext_trace (a : BusAddr) (h : BusHandle) : (bindContext a h s).trace = s.trace := rfl
@[simp] theorem bindContext_responses (a : BusAddr) (h : BusHandle) : (bindContext a h s).responses = s.responses := rfl
@[simp] theorem bindContext_channel (a : BusAddr) (h : BusHandle) : (bindContext a h s).channel = s.channel := rfl
@[simp] theorem bindContext_panel (a : BusAddr) (h : BusHandle) : (bindContext a h s).panel = s.panel := rfl

/-! ## `setInitialized` -/

@[simp] theorem setInitialized_params (b : Bool) : (setInitialized b s).params = s.params := rfl
@[simp] theorem setInitialized_fb (b : Bool) : (setInitialized b s).fb = s.fb := rfl
@[simp] theorem setInitialized_initialized (b : Bool) : (setInitialized b s).initialized = b := rfl
@[simp] theorem setInitialized_busAddr (b : Bool) : (setInitialized b s).busAddr = s.busAddr := rfl
@[simp] theorem setInitialized_busHandle (b : Bool) : (setInitialized b s).busHandle = s.busHandle := rfl
@[simp] theorem setInitialized_tpBound (b : Bool) : (setInitialized b s).tpBound = s.tpBound := rfl
@[simp] theorem setInitialized_tmBound (b : Bool) : (setInitialized b s).tmBound = s.tmBound := rfl
@[simp] theorem setInitialized_seq (b : Bool) : (setInitialized b s).seq = s.seq := rfl
@[simp] theorem setInitialized_lastResult (b : Bool) : (setInitialized b s).lastResult = s.lastResult := rfl
@[simp] theorem setInitialized_request (b : Bool) : (setInitialized b s).request = s.request := rfl
@[simp] theorem setInitialized_pins (b : Bool) : (setInitialized b s).pins = s.pins := rfl
@[simp] theorem setInitialized_rst (b : Bool) : (setInitialized b s).rst = s.rst := rfl
@[simp] theorem setInitialized_port (b : Bool) : (setInitialized b s).port = s.port := rfl
@[simp] theorem setInitialized_answers (b : Bool) : (setInitialized b s).answers = s.answers := rfl
@[simp] theorem setInitialized_delaysDone (b : Bool) : (setInitialized b s).delaysDone = s.delaysDone := rfl
@[simp] theorem setInitialized_trace (b : Bool) : (setInitialized b s).trace = s.trace := rfl
@[simp] theorem setInitialized_responses (b : Bool) : (setInitialized b s).responses = s.responses := rfl
@[simp] theorem setInitialized_channel (b : Bool) : (setInitialized b s).channel = s.channel := rfl
@[simp] theorem setInitialized_panel (b : Bool) : (setInitialized b s).panel = s.panel := rfl

/-! ## `setSeq` -/

@[simp] theorem setSeq_params (q : Seq) : (setSeq q s).params = s.params := rfl
@[simp] theorem setSeq_fb (q : Seq) : (setSeq q s).fb = s.fb := rfl
@[simp] theorem setSeq_initialized (q : Seq) : (setSeq q s).initialized = s.initialized := rfl
@[simp] theorem setSeq_busAddr (q : Seq) : (setSeq q s).busAddr = s.busAddr := rfl
@[simp] theorem setSeq_busHandle (q : Seq) : (setSeq q s).busHandle = s.busHandle := rfl
@[simp] theorem setSeq_tpBound (q : Seq) : (setSeq q s).tpBound = s.tpBound := rfl
@[simp] theorem setSeq_tmBound (q : Seq) : (setSeq q s).tmBound = s.tmBound := rfl
@[simp] theorem setSeq_seq (q : Seq) : (setSeq q s).seq = q := rfl
@[simp] theorem setSeq_lastResult (q : Seq) : (setSeq q s).lastResult = s.lastResult := rfl
@[simp] theorem setSeq_request (q : Seq) : (setSeq q s).request = s.request := rfl
@[simp] theorem setSeq_pins (q : Seq) : (setSeq q s).pins = s.pins := rfl
@[simp] theorem setSeq_rst (q : Seq) : (setSeq q s).rst = s.rst := rfl
@[simp] theorem setSeq_port (q : Seq) : (setSeq q s).port = s.port := rfl
@[simp] theorem setSeq_answers (q : Seq) : (setSeq q s).answers = s.answers := rfl
@[simp] theorem setSeq_delaysDone (q : Seq) : (setSeq q s).delaysDone = s.delaysDone := rfl
@[simp] theorem setSeq_trace (q : Seq) : (setSeq q s).trace = s.trace := rfl
@[simp] theorem setSeq_responses (q : Seq) : (setSeq q s).responses = s.responses := rfl
@[simp] theorem setSeq_channel (q : Seq) : (setSeq q s).channel = s.channel := rfl
@[simp] theorem setSeq_panel (q : Seq) : (setSeq q s).panel = s.panel := rfl

/-! ## `finish` -/

@[simp] theorem finish_params (r : Result) : (finish r s).params = s.params := rfl
@[simp] theorem finish_fb (r : Result) : (finish r s).fb = s.fb := rfl
@[simp] theorem finish_initialized (r : Result) : (finish r s).initialized = s.initialized := rfl
@[simp] theorem finish_busAddr (r : Result) : (finish r s).busAddr = s.busAddr := rfl
@[simp] theorem finish_busHandle (r : Result) : (finish r s).busHandle = s.busHandle := rfl
@[simp] theorem finish_tpBound (r : Result) : (finish r s).tpBound = s.tpBound := rfl
@[simp] theorem finish_tmBound (r : Result) : (finish r s).tmBound = s.tmBound := rfl
@[simp] theorem finish_seq (r : Result) : (finish r s).seq = .idle := rfl
@[simp] theorem finish_lastResult (r : Result) : (finish r s).lastResult = r := rfl
@[simp] theorem finish_request (r : Result) : (finish r s).request = none := rfl
@[simp] theorem finish_pins (r : Result) : (finish r s).pins = s.pins := rfl
@[simp] theorem finish_rst (r : Result) : (finish r s).rst = s.rst := rfl
@[simp] theorem finish_port (r : Result) : (finish r s).port = s.port := rfl
@[simp] theorem finish_answers (r : Result) : (finish r s).answers = s.answers := rfl
@[simp] theorem finish_delaysDone (r : Result) : (finish r s).delaysDone = s.delaysDone := rfl
@[simp] theorem finish_trace (r : Result) : (finish r s).trace = s.trace := rfl
@[simp] theorem finish_responses (r : Result) : (finish r s).responses = s.responses ++ [r.word] := rfl
@[simp] theorem finish_channel (r : Result) : (finish r s).channel = s.channel := rfl
@[simp] theorem finish_panel (r : Result) : (finish r s).panel = s.panel := rfl

/-! ## `issue` -/

@[simp] theorem issue_params (r : Request) : (issue r s).params = s.params := rfl
@[simp] theorem issue_fb (r : Request) : (issue r s).fb = s.fb := rfl
@[simp] theorem issue_initialized (r : Request) : (issue r s).initialized = s.initialized := rfl
@[simp] theorem issue_busAddr (r : Request) : (issue r s).busAddr = s.busAddr := rfl
@[simp] theorem issue_busHandle (r : Request) : (issue r s).busHandle = s.busHandle := rfl
@[simp] theorem issue_tpBound (r : Request) : (issue r s).tpBound = s.tpBound := rfl
@[simp] theorem issue_tmBound (r : Request) : (issue r s).tmBound = s.tmBound := rfl
@[simp] theorem issue_seq (r : Request) : (issue r s).seq = s.seq := rfl
@[simp] theorem issue_lastResult (r : Request) : (issue r s).lastResult = s.lastResult := rfl
@[simp] theorem issue_request (r : Request) : (issue r s).request = some r := rfl
@[simp] theorem issue_pins (r : Request) : (issue r s).pins = s.pins := rfl
@[simp] theorem issue_rst (r : Request) : (issue r s).rst = s.rst := rfl
@[simp] theorem issue_port (r : Request) : (issue r s).port = s.port := rfl
@[simp] theorem issue_answers (r : Request) : (issue r s).answers = s.answers := rfl
@[simp] theorem issue_delaysDone (r : Request) : (issue r s).delaysDone = s.delaysDone := rfl
@[simp] theorem issue_trace (r : Request) : (issue r s).trace = s.trace ++ [eventOf r s] := rfl
@[simp] theorem issue_responses (r : Request) : (issue r s).responses = s.responses := rfl
@[simp] theorem issue_channel (r : Request) : (issue r s).channel = s.channel := rfl
@[simp] theorem issue_panel (r : Request) : (issue r s).panel = s.panel := rfl

/-! ## `takeAnswer` -/

@[simp] theorem takeAnswer_params (l : List Answer) : (takeAnswer l s).params = s.params := rfl
@[simp] theorem takeAnswer_fb (l : List Answer) : (takeAnswer l s).fb = s.fb := rfl
@[simp] theorem takeAnswer_initialized (l : List Answer) : (takeAnswer l s).initialized = s.initialized := rfl
@[simp] theorem takeAnswer_busAddr (l : List Answer) : (takeAnswer l s).busAddr = s.busAddr := rfl
@[simp] theorem takeAnswer_busHandle (l : List Answer) : (takeAnswer l s).busHandle = s.busHandle := rfl
@[simp] theorem takeAnswer_tpBound (l : List Answer) : (takeAnswer l s).tpBound = s.tpBound := rfl
@[simp] theorem takeAnswer_tmBound (l : List Answer) : (takeAnswer l s).tmBound = s.tmBound := rfl
@[simp] theorem takeAnswer_seq (l : List Answer) : (takeAnswer l s).seq = s.seq := rfl
@[simp] theorem takeAnswer_lastResult (l : List Answer) : (takeAnswer l s).lastResult = s.lastResult := rfl
@[simp] theorem takeAnswer_request (l : List Answer) : (takeAnswer l s).request = none := rfl
@[simp] theorem takeAnswer_pins (l : List Answer) : (takeAnswer l s).pins = s.pins := rfl
@[simp] theorem takeAnswer_rst (l : List Answer) : (takeAnswer l s).rst = s.rst := rfl
@[simp] theorem takeAnswer_port (l : List Answer) : (takeAnswer l s).port = s.port := rfl
@[simp] theorem takeAnswer_answers (l : List Answer) : (takeAnswer l s).answers = l := rfl
@[simp] theorem takeAnswer_delaysDone (l : List Answer) : (takeAnswer l s).delaysDone = s.delaysDone := rfl
@[simp] theorem takeAnswer_trace (l : List Answer) : (takeAnswer l s).trace = s.trace := rfl
@[simp] theorem takeAnswer_responses (l : List Answer) : (takeAnswer l s).responses = s.responses := rfl
@[simp] theorem takeAnswer_channel (l : List Answer) : (takeAnswer l s).channel = s.channel := rfl
@[simp] theorem takeAnswer_panel (l : List Answer) : (takeAnswer l s).panel = s.panel := rfl

/-! ## `takeDelay` -/

@[simp] theorem takeDelay_params (n : Nat) : (takeDelay n s).params = s.params := rfl
@[simp] theorem takeDelay_fb (n : Nat) : (takeDelay n s).fb = s.fb := rfl
@[simp] theorem takeDelay_initialized (n : Nat) : (takeDelay n s).initialized = s.initialized := rfl
@[simp] theorem takeDelay_busAddr (n : Nat) : (takeDelay n s).busAddr = s.busAddr := rfl
@[simp] theorem takeDelay_busHandle (n : Nat) : (takeDelay n s).busHandle = s.busHandle := rfl
@[simp] theorem takeDelay_tpBound (n : Nat) : (takeDelay n s).tpBound = s.tpBound := rfl
@[simp] theorem takeDelay_tmBound (n : Nat) : (takeDelay n s).tmBound = s.tmBound := rfl
@[simp] theorem takeDelay_seq (n : Nat) : (takeDelay n s).seq = s.seq := rfl
@[simp] theorem takeDelay_lastResult (n : Nat) : (takeDelay n s).lastResult = s.lastResult := rfl
@[simp] theorem takeDelay_request (n : Nat) : (takeDelay n s).request = none := rfl
@[simp] theorem takeDelay_pins (n : Nat) : (takeDelay n s).pins = s.pins := rfl
@[simp] theorem takeDelay_rst (n : Nat) : (takeDelay n s).rst = s.rst := rfl
@[simp] theorem takeDelay_port (n : Nat) : (takeDelay n s).port = s.port := rfl
@[simp] theorem takeDelay_answers (n : Nat) : (takeDelay n s).answers = s.answers := rfl
@[simp] theorem takeDelay_delaysDone (n : Nat) : (takeDelay n s).delaysDone = n := rfl
@[simp] theorem takeDelay_trace (n : Nat) : (takeDelay n s).trace = s.trace := rfl
@[simp] theorem takeDelay_responses (n : Nat) : (takeDelay n s).responses = s.responses := rfl
@[simp] theorem takeDelay_channel (n : Nat) : (takeDelay n s).channel = s.channel := rfl
@[simp] theorem takeDelay_panel (n : Nat) : (takeDelay n s).panel = s.panel := rfl

/-! ## `setPanel` -/

@[simp] theorem setPanel_params (q : Panel) : (setPanel q s).params = s.params := rfl
@[simp] theorem setPanel_fb (q : Panel) : (setPanel q s).fb = s.fb := rfl
@[simp] theorem setPanel_initialized (q : Panel) : (setPanel q s).initialized = s.initialized := rfl
@[simp] theorem setPanel_busAddr (q : Panel) : (setPanel q s).busAddr = s.busAddr := rfl
@[simp] theorem setPanel_busHandle (q : Panel) : (setPanel q s).busHandle = s.busHandle := rfl
@[simp] theorem setPanel_tpBound (q : Panel) : (setPanel q s).tpBound = s.tpBound := rfl
@[simp] theorem setPanel_tmBound (q : Panel) : (setPanel q s).tmBound = s.tmBound := rfl
@[simp] theorem setPanel_seq (q : Panel) : (setPanel q s).seq = s.seq := rfl
@[simp] theorem setPanel_lastResult (q : Panel) : (setPanel q s).lastResult = s.lastResult := rfl
@[simp] theorem setPanel_request (q : Panel) : (setPanel q s).request = s.request := rfl
@[simp] theorem setPanel_pins (q : Panel) : (setPanel q s).pins = s.pins := rfl
@[simp] theorem setPanel_rst (q : Panel) : (setPanel q s).rst = s.rst := rfl
@[simp] theorem setPanel_port (q : Panel) : (setPanel q s).port = s.port := rfl
@[simp] theorem setPanel_answers (q : Panel) : (setPanel q s).answers = s.answers := rfl
@[simp] theorem setPanel_delaysDone (q : Panel) : (setPanel q s).delaysDone = s.delaysDone := rfl
@[simp] theorem setPanel_trace (q : Panel) : (setPanel q s).trace = s.trace := rfl
@[simp] theorem setPanel_responses (q : Panel) : (setPanel q s).responses = s.responses := rfl
@[simp] theorem setPanel_channel (q : Panel) : (setPanel q s).channel = s.channel := rfl
@[simp] theorem setPanel_panel (q : Panel) : (setPanel q s).panel = q := rfl

/-! ## `setChannel` -/

@[simp] theorem setChannel_params (c : Selector) : (setChannel c s).params = s.params := rfl
@[simp] theorem setChannel_fb (c : Selector) : (setChannel c s).fb = s.fb := rfl
@[simp] theorem setChannel_initialized (c : Selector) : (setChannel c s).initialized = s.initialized := rfl
@[simp] theorem setChannel_busAddr (c : Selector) : (setChannel c s).busAddr = s.busAddr := rfl
@[simp] theorem setChannel_busHandle (c : Selector) : (setChannel c s).busHandle = s.busHandle := rfl
@[simp] theorem setChannel_tpBound (c : Selector) : (setChannel c s).tpBound = s.tpBound := rfl
@[simp] theorem setChannel_tmBound (c : Selector) : (setChannel c s).tmBound = s.tmBound := rfl
@[simp] theorem setChannel_seq (c : Selector) : (setChannel c s).seq = s.seq := rfl
@[simp] theorem setChannel_lastResult (c : Selector) : (setChannel c s).lastResult = s.lastResult := rfl
@[simp] theorem setChannel_request (c : Selector) : (setChannel c s).request = s.request := rfl
@[simp] theorem setChannel_pins (c : Selector) : (setChannel c s).pins = s.pins := rfl
@[simp] theorem setChannel_rst (c : Selector) : (setChannel c s).rst = s.rst := rfl
@[simp] theorem setChannel_port (c : Selector) : (setChannel c s).port = s.port := rfl
@[simp] theorem setChannel_answers (c : Selector) : (setChannel c s).answers = s.answers := rfl
@[simp] theorem setChannel_delaysDone (c : Selector) : (setChannel c s).delaysDone = s.delaysDone := rfl
@[simp] theorem setChannel_trace (c : Selector) : (setChannel c s).trace = s.trace := rfl
@[simp] theorem setChannel_responses (c : Selector) : (setChannel c s).responses = s.responses := rfl
@[simp] theorem setChannel_channel (c : Selector) : (setChannel c s).channel = c := rfl
@[simp] theorem setChannel_panel (c : Selector) : (setChannel c s).panel = s.panel := rfl

/-! ## `deliver` -/

@[simp] theorem deliver_params (c : Selector) (bs : List Byte) : (deliver c bs s).params = s.params := rfl
@[simp] theorem deliver_fb (c : Selector) (bs : List Byte) : (deliver c bs s).fb = s.fb := rfl
@[simp] theorem deliver_initialized (c : Selector) (bs : List Byte) : (deliver c bs s).initialized = s.initialized := rfl
@[simp] theorem deliver_busAddr (c : Selector) (bs : List Byte) : (deliver c bs s).busAddr = s.busAddr := rfl
@[simp] theorem deliver_busHandle (c : Selector) (bs : List Byte) : (deliver c bs s).busHandle = s.busHandle := rfl
@[simp] theorem deliver_tpBound (c : Selector) (bs : List Byte) : (deliver c bs s).tpBound = s.tpBound := rfl
@[simp] theorem deliver_tmBound (c : Selector) (bs : List Byte) : (deliver c bs s).tmBound = s.tmBound := rfl
@[simp] theorem deliver_seq (c : Selector) (bs : List Byte) : (deliver c bs s).seq = s.seq := rfl
@[simp] theorem deliver_lastResult (c : Selector) (bs : List Byte) : (deliver c bs s).lastResult = s.lastResult := rfl
@[simp] theorem deliver_request (c : Selector) (bs : List Byte) : (deliver c bs s).request = s.request := rfl
@[simp] theorem deliver_pins (c : Selector) (bs : List Byte) : (deliver c bs s).pins = s.pins := rfl
@[simp] theorem deliver_rst (c : Selector) (bs : List Byte) : (deliver c bs s).rst = s.rst := rfl
@[simp] theorem deliver_port (c : Selector) (bs : List Byte) : (deliver c bs s).port = s.port := rfl
@[simp] theorem deliver_answers (c : Selector) (bs : List Byte) : (deliver c bs s).answers = s.answers := rfl
@[simp] theorem deliver_delaysDone (c : Selector) (bs : List Byte) : (deliver c bs s).delaysDone = s.delaysDone := rfl
@[simp] theorem deliver_trace (c : Selector) (bs : List Byte) : (deliver c bs s).trace = s.trace := rfl
@[simp] theorem deliver_responses (c : Selector) (bs : List Byte) : (deliver c bs s).responses = s.responses := rfl
@[simp] theorem deliver_channel (c : Selector) (bs : List Byte) : (deliver c bs s).channel = c := rfl
@[simp] theorem deliver_panel (c : Selector) (bs : List Byte) : (deliver c bs s).panel = s.panel.take c bs := rfl

/-! ## `tear` -/

@[simp] theorem tear_params (c : Selector) (bs : List Byte) : (tear c bs s).params = s.params := rfl
@[simp] theorem tear_fb (c : Selector) (bs : List Byte) : (tear c bs s).fb = s.fb := rfl
@[simp] theorem tear_initialized (c : Selector) (bs : List Byte) : (tear c bs s).initialized = s.initialized := rfl
@[simp] theorem tear_busAddr (c : Selector) (bs : List Byte) : (tear c bs s).busAddr = s.busAddr := rfl
@[simp] theorem tear_busHandle (c : Selector) (bs : List Byte) : (tear c bs s).busHandle = s.busHandle := rfl
@[simp] theorem tear_tpBound (c : Selector) (bs : List Byte) : (tear c bs s).tpBound = s.tpBound := rfl
@[simp] theorem tear_tmBound (c : Selector) (bs : List Byte) : (tear c bs s).tmBound = s.tmBound := rfl
@[simp] theorem tear_seq (c : Selector) (bs : List Byte) : (tear c bs s).seq = s.seq := rfl
@[simp] theorem tear_lastResult (c : Selector) (bs : List Byte) : (tear c bs s).lastResult = s.lastResult := rfl
@[simp] theorem tear_request (c : Selector) (bs : List Byte) : (tear c bs s).request = s.request := rfl
@[simp] theorem tear_pins (c : Selector) (bs : List Byte) : (tear c bs s).pins = s.pins := rfl
@[simp] theorem tear_rst (c : Selector) (bs : List Byte) : (tear c bs s).rst = s.rst := rfl
@[simp] theorem tear_port (c : Selector) (bs : List Byte) : (tear c bs s).port = s.port := rfl
@[simp] theorem tear_answers (c : Selector) (bs : List Byte) : (tear c bs s).answers = s.answers := rfl
@[simp] theorem tear_delaysDone (c : Selector) (bs : List Byte) : (tear c bs s).delaysDone = s.delaysDone := rfl
@[simp] theorem tear_trace (c : Selector) (bs : List Byte) : (tear c bs s).trace = s.trace := rfl
@[simp] theorem tear_responses (c : Selector) (bs : List Byte) : (tear c bs s).responses = s.responses := rfl
@[simp] theorem tear_channel (c : Selector) (bs : List Byte) : (tear c bs s).channel = c := rfl
@[simp] theorem tear_panel (c : Selector) (bs : List Byte) : (tear c bs s).panel = s.panel.torn c bs := rfl

/-! ## `setPort` -/

@[simp] theorem setPort_params (p : List Offer) : (setPort p s).params = s.params := rfl
@[simp] theorem setPort_fb (p : List Offer) : (setPort p s).fb = s.fb := rfl
@[simp] theorem setPort_initialized (p : List Offer) : (setPort p s).initialized = s.initialized := rfl
@[simp] theorem setPort_busAddr (p : List Offer) : (setPort p s).busAddr = s.busAddr := rfl
@[simp] theorem setPort_busHandle (p : List Offer) : (setPort p s).busHandle = s.busHandle := rfl
@[simp] theorem setPort_tpBound (p : List Offer) : (setPort p s).tpBound = s.tpBound := rfl
@[simp] theorem setPort_tmBound (p : List Offer) : (setPort p s).tmBound = s.tmBound := rfl
@[simp] theorem setPort_seq (p : List Offer) : (setPort p s).seq = s.seq := rfl
@[simp] theorem setPort_lastResult (p : List Offer) : (setPort p s).lastResult = s.lastResult := rfl
@[simp] theorem setPort_request (p : List Offer) : (setPort p s).request = s.request := rfl
@[simp] theorem setPort_pins (p : List Offer) : (setPort p s).pins = s.pins := rfl
@[simp] theorem setPort_rst (p : List Offer) : (setPort p s).rst = s.rst := rfl
@[simp] theorem setPort_port (p : List Offer) : (setPort p s).port = p := rfl
@[simp] theorem setPort_answers (p : List Offer) : (setPort p s).answers = s.answers := rfl
@[simp] theorem setPort_delaysDone (p : List Offer) : (setPort p s).delaysDone = s.delaysDone := rfl
@[simp] theorem setPort_trace (p : List Offer) : (setPort p s).trace = s.trace := rfl
@[simp] theorem setPort_responses (p : List Offer) : (setPort p s).responses = s.responses := rfl
@[simp] theorem setPort_channel (p : List Offer) : (setPort p s).channel = s.channel := rfl
@[simp] theorem setPort_panel (p : List Offer) : (setPort p s).panel = s.panel := rfl

/-! ## `offer` -/

@[simp] theorem offer_params (o : Offer) : (offer o s).params = s.params := rfl
@[simp] theorem offer_fb (o : Offer) : (offer o s).fb = s.fb := rfl
@[simp] theorem offer_initialized (o : Offer) : (offer o s).initialized = s.initialized := rfl
@[simp] theorem offer_busAddr (o : Offer) : (offer o s).busAddr = s.busAddr := rfl
@[simp] theorem offer_busHandle (o : Offer) : (offer o s).busHandle = s.busHandle := rfl
@[simp] theorem offer_tpBound (o : Offer) : (offer o s).tpBound = s.tpBound := rfl
@[simp] theorem offer_tmBound (o : Offer) : (offer o s).tmBound = s.tmBound := rfl
@[simp] theorem offer_seq (o : Offer) : (offer o s).seq = s.seq := rfl
@[simp] theorem offer_lastResult (o : Offer) : (offer o s).lastResult = s.lastResult := rfl
@[simp] theorem offer_request (o : Offer) : (offer o s).request = s.request := rfl
@[simp] theorem offer_pins (o : Offer) : (offer o s).pins = s.pins := rfl
@[simp] theorem offer_rst (o : Offer) : (offer o s).rst = s.rst := rfl
@[simp] theorem offer_port (o : Offer) : (offer o s).port = s.port ++ [o] := rfl
@[simp] theorem offer_answers (o : Offer) : (offer o s).answers = s.answers := rfl
@[simp] theorem offer_delaysDone (o : Offer) : (offer o s).delaysDone = s.delaysDone := rfl
@[simp] theorem offer_trace (o : Offer) : (offer o s).trace = s.trace := rfl
@[simp] theorem offer_responses (o : Offer) : (offer o s).responses = s.responses := rfl
@[simp] theorem offer_channel (o : Offer) : (offer o s).channel = s.channel := rfl
@[simp] theorem offer_panel (o : Offer) : (offer o s).panel = s.panel := rfl

/-! ## `giveDelay` -/

@[simp] theorem giveDelay_params : (giveDelay s).params = s.params := rfl
@[simp] theorem giveDelay_fb : (giveDelay s).fb = s.fb := rfl
@[simp] theorem giveDelay_initialized : (giveDelay s).initialized = s.initialized := rfl
@[simp] theorem giveDelay_busAddr : (giveDelay s).busAddr = s.busAddr := rfl
@[simp] theorem giveDelay_busHandle : (giveDelay s).busHandle = s.busHandle := rfl
@[simp] theorem giveDelay_tpBound : (giveDelay s).tpBound = s.tpBound := rfl
@[simp] theorem giveDelay_tmBound : (giveDelay s).tmBound = s.tmBound := rfl
@[simp] theorem giveDelay_seq : (giveDelay s).seq = s.seq := rfl
@[simp] theorem giveDelay_lastResult : (giveDelay s).lastResult = s.lastResult := rfl
@[simp] theorem giveDelay_request : (giveDelay s).request = s.request := rfl
@[simp] theorem giveDelay_pins : (giveDelay s).pins = s.pins := rfl
@[simp] theorem giveDelay_rst : (giveDelay s).rst = s.rst := rfl
@[simp] theorem giveDelay_port : (giveDelay s).port = s.port := rfl
@[simp] theorem giveDelay_answers : (giveDelay s).answers = s.answers := rfl
@[simp] theorem giveDelay_delaysDone : (giveDelay s).delaysDone = s.delaysDone + 1 := rfl
@[simp] theorem giveDelay_trace : (giveDelay s).trace = s.trace := rfl
@[simp] theorem giveDelay_responses : (giveDelay s).responses = s.responses := rfl
@[simp] theorem giveDelay_channel : (giveDelay s).channel = s.channel := rfl
@[simp] theorem giveDelay_panel : (giveDelay s).panel = s.panel := rfl

/-! ## `setPins` -/

@[simp] theorem setPins_params (p : Pins) : (setPins p s).params = s.params := rfl
@[simp] theorem setPins_fb (p : Pins) : (setPins p s).fb = s.fb := rfl
@[simp] theorem setPins_initialized (p : Pins) : (setPins p s).initialized = s.initialized := rfl
@[simp] theorem setPins_busAddr (p : Pins) : (setPins p s).busAddr = s.busAddr := rfl
@[simp] theorem setPins_busHandle (p : Pins) : (setPins p s).busHandle = s.busHandle := rfl
@[simp] theorem setPins_tpBound (p : Pins) : (setPins p s).tpBound = s.tpBound := rfl
@[simp] theorem setPins_tmBound (p : Pins) : (setPins p s).tmBound = s.tmBound := rfl
@[simp] theorem setPins_seq (p : Pins) : (setPins p s).seq = s.seq := rfl
@[simp] theorem setPins_lastResult (p : Pins) : (setPins p s).lastResult = s.lastResult := rfl
@[simp] theorem setPins_request (p : Pins) : (setPins p s).request = s.request := rfl
@[simp] theorem setPins_pins (p : Pins) : (setPins p s).pins = p := rfl
@[simp] theorem setPins_rst (p : Pins) : (setPins p s).rst = s.rst := rfl
@[simp] theorem setPins_port (p : Pins) : (setPins p s).port = s.port := rfl
@[simp] theorem setPins_answers (p : Pins) : (setPins p s).answers = s.answers := rfl
@[simp] theorem setPins_delaysDone (p : Pins) : (setPins p s).delaysDone = s.delaysDone := rfl
@[simp] theorem setPins_trace (p : Pins) : (setPins p s).trace = s.trace := rfl
@[simp] theorem setPins_responses (p : Pins) : (setPins p s).responses = s.responses := rfl
@[simp] theorem setPins_channel (p : Pins) : (setPins p s).channel = s.channel := rfl
@[simp] theorem setPins_panel (p : Pins) : (setPins p s).panel = s.panel := rfl

/-! ## `clearBlock` -/

@[simp] theorem clearBlock_params : (clearBlock s).params = s.params := rfl
@[simp] theorem clearBlock_fb : (clearBlock s).fb = [] := rfl
@[simp] theorem clearBlock_initialized : (clearBlock s).initialized = false := rfl
@[simp] theorem clearBlock_busAddr : (clearBlock s).busAddr = 0 := rfl
@[simp] theorem clearBlock_busHandle : (clearBlock s).busHandle = 0 := rfl
@[simp] theorem clearBlock_tpBound : (clearBlock s).tpBound = false := rfl
@[simp] theorem clearBlock_tmBound : (clearBlock s).tmBound = false := rfl
@[simp] theorem clearBlock_seq : (clearBlock s).seq = .idle := rfl
@[simp] theorem clearBlock_lastResult : (clearBlock s).lastResult = .ok := rfl
@[simp] theorem clearBlock_request : (clearBlock s).request = none := rfl
@[simp] theorem clearBlock_pins : (clearBlock s).pins = s.pins := rfl
@[simp] theorem clearBlock_rst : (clearBlock s).rst = s.rst := rfl
@[simp] theorem clearBlock_port : (clearBlock s).port = s.port := rfl
@[simp] theorem clearBlock_answers : (clearBlock s).answers = s.answers := rfl
@[simp] theorem clearBlock_delaysDone : (clearBlock s).delaysDone = s.delaysDone := rfl
@[simp] theorem clearBlock_trace : (clearBlock s).trace = s.trace := rfl
@[simp] theorem clearBlock_responses : (clearBlock s).responses = s.responses := rfl
@[simp] theorem clearBlock_channel : (clearBlock s).channel = s.channel := rfl
@[simp] theorem clearBlock_panel : (clearBlock s).panel = s.panel := rfl

/-! ## Updates that are other updates -/

@[simp] theorem zeroFill_eq : zeroFill s = setFb [] s := rfl
@[simp] theorem raiseInvalidArgument_eq : raiseInvalidArgument s = finish .invalidArgument s := rfl
@[simp] theorem raiseIoError_eq (e : IoErr) : raiseIoError e s = finish (.ioError e) s := rfl
@[simp] theorem returnOk_eq : returnOk s = finish .ok s := rfl

/-! ## `markDone` sets `ctx.initialized` for `INIT` and nothing else -/

@[simp] theorem markDone_params (op : Operation) : (markDone op s).params = s.params := by cases op <;> rfl
@[simp] theorem markDone_fb (op : Operation) : (markDone op s).fb = s.fb := by cases op <;> rfl
@[simp] theorem markDone_busAddr (op : Operation) : (markDone op s).busAddr = s.busAddr := by cases op <;> rfl
@[simp] theorem markDone_busHandle (op : Operation) : (markDone op s).busHandle = s.busHandle := by cases op <;> rfl
@[simp] theorem markDone_tpBound (op : Operation) : (markDone op s).tpBound = s.tpBound := by cases op <;> rfl
@[simp] theorem markDone_tmBound (op : Operation) : (markDone op s).tmBound = s.tmBound := by cases op <;> rfl
@[simp] theorem markDone_seq (op : Operation) : (markDone op s).seq = s.seq := by cases op <;> rfl
@[simp] theorem markDone_lastResult (op : Operation) : (markDone op s).lastResult = s.lastResult := by cases op <;> rfl
@[simp] theorem markDone_request (op : Operation) : (markDone op s).request = s.request := by cases op <;> rfl
@[simp] theorem markDone_pins (op : Operation) : (markDone op s).pins = s.pins := by cases op <;> rfl
@[simp] theorem markDone_rst (op : Operation) : (markDone op s).rst = s.rst := by cases op <;> rfl
@[simp] theorem markDone_port (op : Operation) : (markDone op s).port = s.port := by cases op <;> rfl
@[simp] theorem markDone_answers (op : Operation) : (markDone op s).answers = s.answers := by cases op <;> rfl
@[simp] theorem markDone_delaysDone (op : Operation) : (markDone op s).delaysDone = s.delaysDone := by cases op <;> rfl
@[simp] theorem markDone_trace (op : Operation) : (markDone op s).trace = s.trace := by cases op <;> rfl
@[simp] theorem markDone_responses (op : Operation) : (markDone op s).responses = s.responses := by cases op <;> rfl
@[simp] theorem markDone_channel (op : Operation) : (markDone op s).channel = s.channel := by cases op <;> rfl
@[simp] theorem markDone_panel (op : Operation) : (markDone op s).panel = s.panel := by cases op <;> rfl

/-! ## `completeAction` moves `seq`, or ends the operation -/

@[simp] theorem completeAction_params (op : Operation) (k : Nat) : (completeAction op k s).params = s.params := by
  unfold completeAction; split <;> simp
@[simp] theorem completeAction_fb (op : Operation) (k : Nat) : (completeAction op k s).fb = s.fb := by
  unfold completeAction; split <;> simp
@[simp] theorem completeAction_busAddr (op : Operation) (k : Nat) : (completeAction op k s).busAddr = s.busAddr := by
  unfold completeAction; split <;> simp
@[simp] theorem completeAction_busHandle (op : Operation) (k : Nat) : (completeAction op k s).busHandle = s.busHandle := by
  unfold completeAction; split <;> simp
@[simp] theorem completeAction_tpBound (op : Operation) (k : Nat) : (completeAction op k s).tpBound = s.tpBound := by
  unfold completeAction; split <;> simp
@[simp] theorem completeAction_tmBound (op : Operation) (k : Nat) : (completeAction op k s).tmBound = s.tmBound := by
  unfold completeAction; split <;> simp
@[simp] theorem completeAction_pins (op : Operation) (k : Nat) : (completeAction op k s).pins = s.pins := by
  unfold completeAction; split <;> simp
@[simp] theorem completeAction_rst (op : Operation) (k : Nat) : (completeAction op k s).rst = s.rst := by
  unfold completeAction; split <;> simp
@[simp] theorem completeAction_port (op : Operation) (k : Nat) : (completeAction op k s).port = s.port := by
  unfold completeAction; split <;> simp
@[simp] theorem completeAction_answers (op : Operation) (k : Nat) : (completeAction op k s).answers = s.answers := by
  unfold completeAction; split <;> simp
@[simp] theorem completeAction_delaysDone (op : Operation) (k : Nat) : (completeAction op k s).delaysDone = s.delaysDone := by
  unfold completeAction; split <;> simp
@[simp] theorem completeAction_trace (op : Operation) (k : Nat) : (completeAction op k s).trace = s.trace := by
  unfold completeAction; split <;> simp
@[simp] theorem completeAction_channel (op : Operation) (k : Nat) : (completeAction op k s).channel = s.channel := by
  unfold completeAction; split <;> simp
@[simp] theorem completeAction_panel (op : Operation) (k : Nat) : (completeAction op k s).panel = s.panel := by
  unfold completeAction; split <;> simp

/-! ## `abandon` touches the panel and the transport's channel alone -/

@[simp] theorem abandon_params : (abandon s).params = s.params := by
  unfold abandon; split
  · rfl
  · split <;> rfl
@[simp] theorem abandon_fb : (abandon s).fb = s.fb := by
  unfold abandon; split
  · rfl
  · split <;> rfl
@[simp] theorem abandon_initialized : (abandon s).initialized = s.initialized := by
  unfold abandon; split
  · rfl
  · split <;> rfl
@[simp] theorem abandon_busAddr : (abandon s).busAddr = s.busAddr := by
  unfold abandon; split
  · rfl
  · split <;> rfl
@[simp] theorem abandon_busHandle : (abandon s).busHandle = s.busHandle := by
  unfold abandon; split
  · rfl
  · split <;> rfl
@[simp] theorem abandon_tpBound : (abandon s).tpBound = s.tpBound := by
  unfold abandon; split
  · rfl
  · split <;> rfl
@[simp] theorem abandon_tmBound : (abandon s).tmBound = s.tmBound := by
  unfold abandon; split
  · rfl
  · split <;> rfl
@[simp] theorem abandon_seq : (abandon s).seq = s.seq := by
  unfold abandon; split
  · rfl
  · split <;> rfl
@[simp] theorem abandon_lastResult : (abandon s).lastResult = s.lastResult := by
  unfold abandon; split
  · rfl
  · split <;> rfl
@[simp] theorem abandon_request : (abandon s).request = s.request := by
  unfold abandon; split
  · rfl
  · split <;> rfl
@[simp] theorem abandon_pins : (abandon s).pins = s.pins := by
  unfold abandon; split
  · rfl
  · split <;> rfl
@[simp] theorem abandon_rst : (abandon s).rst = s.rst := by
  unfold abandon; split
  · rfl
  · split <;> rfl
@[simp] theorem abandon_port : (abandon s).port = s.port := by
  unfold abandon; split
  · rfl
  · split <;> rfl
@[simp] theorem abandon_answers : (abandon s).answers = s.answers := by
  unfold abandon; split
  · rfl
  · split <;> rfl
@[simp] theorem abandon_delaysDone : (abandon s).delaysDone = s.delaysDone := by
  unfold abandon; split
  · rfl
  · split <;> rfl
@[simp] theorem abandon_trace : (abandon s).trace = s.trace := by
  unfold abandon; split
  · rfl
  · split <;> rfl
@[simp] theorem abandon_responses : (abandon s).responses = s.responses := by
  unfold abandon; split
  · rfl
  · split <;> rfl

/-! ## `applyReset` clears the block; the inputs and the records stay -/

@[simp] theorem applyReset_params : (applyReset s).params = s.params := by simp [applyReset]
@[simp] theorem applyReset_fb : (applyReset s).fb = [] := by simp [applyReset]
@[simp] theorem applyReset_initialized : (applyReset s).initialized = false := by simp [applyReset]
@[simp] theorem applyReset_busAddr : (applyReset s).busAddr = 0 := by simp [applyReset]
@[simp] theorem applyReset_busHandle : (applyReset s).busHandle = 0 := by simp [applyReset]
@[simp] theorem applyReset_tpBound : (applyReset s).tpBound = false := by simp [applyReset]
@[simp] theorem applyReset_tmBound : (applyReset s).tmBound = false := by simp [applyReset]
@[simp] theorem applyReset_seq : (applyReset s).seq = .idle := by simp [applyReset]
@[simp] theorem applyReset_lastResult : (applyReset s).lastResult = .ok := by simp [applyReset]
@[simp] theorem applyReset_request : (applyReset s).request = none := by simp [applyReset]
@[simp] theorem applyReset_pins : (applyReset s).pins = s.pins := by simp [applyReset]
@[simp] theorem applyReset_rst : (applyReset s).rst = s.rst := by simp [applyReset]
@[simp] theorem applyReset_port : (applyReset s).port = s.port := by simp [applyReset]
@[simp] theorem applyReset_answers : (applyReset s).answers = s.answers := by simp [applyReset]
@[simp] theorem applyReset_delaysDone : (applyReset s).delaysDone = s.delaysDone := by simp [applyReset]
@[simp] theorem applyReset_trace : (applyReset s).trace = s.trace := by simp [applyReset]
@[simp] theorem applyReset_responses : (applyReset s).responses = s.responses := by simp [applyReset]
@[simp] theorem applyReset_panel : (applyReset s).panel = (abandon s).panel := rfl
@[simp] theorem applyReset_channel : (applyReset s).channel = (abandon s).channel := rfl

/-! ## `giveAnswer` adds to the answers alone -/

@[simp] theorem giveAnswer_params (a : Answer) : (giveAnswer a s).params = s.params := by
  unfold giveAnswer; split <;> rfl
@[simp] theorem giveAnswer_fb (a : Answer) : (giveAnswer a s).fb = s.fb := by
  unfold giveAnswer; split <;> rfl
@[simp] theorem giveAnswer_initialized (a : Answer) : (giveAnswer a s).initialized = s.initialized := by
  unfold giveAnswer; split <;> rfl
@[simp] theorem giveAnswer_busAddr (a : Answer) : (giveAnswer a s).busAddr = s.busAddr := by
  unfold giveAnswer; split <;> rfl
@[simp] theorem giveAnswer_busHandle (a : Answer) : (giveAnswer a s).busHandle = s.busHandle := by
  unfold giveAnswer; split <;> rfl
@[simp] theorem giveAnswer_tpBound (a : Answer) : (giveAnswer a s).tpBound = s.tpBound := by
  unfold giveAnswer; split <;> rfl
@[simp] theorem giveAnswer_tmBound (a : Answer) : (giveAnswer a s).tmBound = s.tmBound := by
  unfold giveAnswer; split <;> rfl
@[simp] theorem giveAnswer_seq (a : Answer) : (giveAnswer a s).seq = s.seq := by
  unfold giveAnswer; split <;> rfl
@[simp] theorem giveAnswer_lastResult (a : Answer) : (giveAnswer a s).lastResult = s.lastResult := by
  unfold giveAnswer; split <;> rfl
@[simp] theorem giveAnswer_request (a : Answer) : (giveAnswer a s).request = s.request := by
  unfold giveAnswer; split <;> rfl
@[simp] theorem giveAnswer_pins (a : Answer) : (giveAnswer a s).pins = s.pins := by
  unfold giveAnswer; split <;> rfl
@[simp] theorem giveAnswer_rst (a : Answer) : (giveAnswer a s).rst = s.rst := by
  unfold giveAnswer; split <;> rfl
@[simp] theorem giveAnswer_port (a : Answer) : (giveAnswer a s).port = s.port := by
  unfold giveAnswer; split <;> rfl
@[simp] theorem giveAnswer_delaysDone (a : Answer) : (giveAnswer a s).delaysDone = s.delaysDone := by
  unfold giveAnswer; split <;> rfl
@[simp] theorem giveAnswer_trace (a : Answer) : (giveAnswer a s).trace = s.trace := by
  unfold giveAnswer; split <;> rfl
@[simp] theorem giveAnswer_responses (a : Answer) : (giveAnswer a s).responses = s.responses := by
  unfold giveAnswer; split <;> rfl
@[simp] theorem giveAnswer_channel (a : Answer) : (giveAnswer a s).channel = s.channel := by
  unfold giveAnswer; split <;> rfl
@[simp] theorem giveAnswer_panel (a : Answer) : (giveAnswer a s).panel = s.panel := by
  unfold giveAnswer; split <;> rfl


end Sys2Proof.Machine
end

