-- ==== Sys2Proof/Laws/Ops.lean ====
section
/-! SUPPORT. What the buffer accesses and the checks answer. -/

namespace Sys2Proof.Machine

open Sys2Proof

/-- `fb[p][c]` where the byte exists. -/
theorem fbRead_eq (s : State) {p c : Nat} (hp : p < 8) (hc : c < 128) :
    fbRead s p c = some (Memory.read s.fb (linear p c)) :=
  if_pos ((Bool.and_eq_true _ _).mpr ⟨decide_eq_true hp, decide_eq_true hc⟩)

/-- `fb[p][c] <- v` where the byte exists. -/
theorem fbWrite_eq (s : State) {p c : Nat} (v : Byte) (hp : p < 8) (hc : c < 128) :
    fbWrite s p c v = some (setFb (Memory.write s.fb (linear p c) v) s) :=
  if_pos ((Bool.and_eq_true _ _).mpr ⟨decide_eq_true hp, decide_eq_true hc⟩)

/-- A write that answers a state changed one byte, and that byte exists. -/
theorem fbWrite_cases {s t : State} {p c : Nat} {v : Byte} (h : fbWrite s p c v = some t) :
    p < 8 ∧ c < 128 ∧ t = setFb (Memory.write s.fb (linear p c) v) s := by
  unfold fbWrite at h
  split_ifs at h with hpc
  have hpc' := (Bool.and_eq_true _ _).mp hpc
  exact ⟨of_decide_eq_true hpc'.1, of_decide_eq_true hpc'.2, (Option.some.inj h).symm⟩

theorem onPanel_iff (x y : Byte) : onPanel x y = true ↔ x.toNat < 128 ∧ y.toNat < 64 := by
  unfold onPanel
  rw [Bool.and_eq_true]
  exact and_congr decide_eq_true_iff decide_eq_true_iff

theorem pageOf_lt {y : Byte} (h : y.toNat < 64) : pageOf y < 8 := by
  unfold pageOf Config.rowsPerPage; omega

/-- `SET_PIXEL`'s read-modify-write of a pixel of the panel. -/
theorem plotPixel_eq (s : State) {x y : Byte} (c : Color) (hx : x.toNat < 128) (hy : y.toNat < 64) :
    plotPixel x y c s = some (setFb (Memory.write s.fb (linear (pageOf y) x.toNat)
      (withPixel y c (Memory.read s.fb (linear (pageOf y) x.toNat)))) s) := by
  simp only [plotPixel, fbRead_eq s (pageOf_lt hy) hx, fbWrite_eq s _ (pageOf_lt hy) hx]

/-- A read-modify-write that answers a state changed one byte. -/
theorem plotPixel_cases {s t : State} {x y : Byte} {c : Color} (h : plotPixel x y c s = some t) :
    pageOf y < 8 ∧ x.toNat < 128 ∧ ∃ v, t = setFb (Memory.write s.fb (linear (pageOf y) x.toNat) v) s := by
  unfold plotPixel at h
  split at h
  · obtain ⟨hp, hc, ht⟩ := fbWrite_cases h
    exact ⟨hp, hc, _, ht⟩
  · cases h

/-- `INIT`'s check passes exactly with all three pins high. -/
theorem pinsOk_iff (s : State) : pinsOk s = true ↔ s.pins = ⟨true, true, true⟩ := by
  rcases h : s.pins with ⟨a, b, c⟩
  unfold pinsOk
  rw [h]
  cases a <;> cases b <;> cases c <;> decide

/-- The result word of each result. -/
@[simp] theorem Result.word_ok : Result.word .ok = 0x0000 := rfl
@[simp] theorem Result.word_invalidArgument : Result.word .invalidArgument = 0x0100 := rfl

/-- With no operation in progress a reset abandons nothing. -/
theorem abandon_idle {s : State} (h : s.seq = .idle) : abandon s = s := by simp [abandon, h]

/-- Everything abandoning an operation can do: nothing, tear the write that has not been answered, or leave the panel
where it stands, with an unfinished command kept or dropped. -/
theorem abandon_cases (s : State) :
    (s.seq = .idle ∧ abandon s = s) ∨
    (∃ sel bytes, s.request = some (.write sel bytes) ∧ abandon s = tear sel bytes s) ∨
    ((∀ sel bytes, s.request ≠ some (.write sel bytes)) ∧ abandon s = setPanel s.panel.interrupted s) := by
  rcases hq : s.seq with _ | ⟨op, k⟩
  · exact .inl ⟨rfl, abandon_idle hq⟩
  · rcases hr : s.request with _ | ⟨sel, bytes⟩ | ms
    · exact .inr (.inr ⟨fun _ _ h => by simp at h, by simp [abandon, hq, hr]⟩)
    · exact .inr (.inl ⟨sel, bytes, rfl, by simp [abandon, hq, hr]⟩)
    · exact .inr (.inr ⟨fun _ _ h => by simp at h, by simp [abandon, hq, hr]⟩)

/-- A reset keeps the panel's invariant. -/
theorem abandon_panel_wf {s : State} (h : s.panel.wf = true) : (abandon s).panel.wf = true := by
  rcases abandon_cases s with ⟨_, h'⟩ | ⟨sel, bytes, _, h'⟩ | ⟨_, h'⟩ <;> rw [h']
  · exact h
  · simpa using Panel.torn_wf _ _ h
  · simpa using Panel.interrupted_wf h

end Sys2Proof.Machine
end

