-- ==== Sys2Proof/Laws/PerInstr.lean ====
section
/-! SUPPORT. The family EncodedLength: an instruction's bytes are as many as its layer and its row give it. -/

namespace Sys2Proof.Laws.EncodedLength

open Sys2Proof

/-- Four bytes for a command word (30_encoding.md R82), two for a result word (R70), one for a selector (R73), and for
a panel command its command byte and the row's parameter bytes (R76). -/
def Statement (i : Instr) : Prop :=
  (layerOf i = .hostCommand → (encode i).length = 4) ∧ (layerOf i = .hostResult → (encode i).length = 2) ∧
    (layerOf i = .transportSelector → (encode i).length = 1) ∧
    (layerOf i = .panelCommand → 1 ≤ (encode i).length ∧ (encode i).length ≤ 3)

theorem init (a : BusAddr) (h : BusHandle) : Statement (.init a h) := by
  simp [Statement, layerOf, encode, bytesOfWord32]
theorem deinit : Statement .deinit := by simp [Statement, layerOf, encode, bytesOfWord32]
theorem powerOn : Statement .powerOn := by simp [Statement, layerOf, encode, bytesOfWord32]
theorem powerOff : Statement .powerOff := by simp [Statement, layerOf, encode, bytesOfWord32]
theorem clear : Statement .clear := by simp [Statement, layerOf, encode, bytesOfWord32]
theorem setPixel (x y : Byte) (c : Color) : Statement (.setPixel x y c) := by
  simp [Statement, layerOf, encode, bytesOfWord32]
theorem updateDisplay : Statement .updateDisplay := by simp [Statement, layerOf, encode, bytesOfWord32]
theorem resultOk : Statement .resultOk := by simp [Statement, layerOf, encode, bytesOfWord16]
theorem resultInvalidArgument : Statement .resultInvalidArgument := by
  simp [Statement, layerOf, encode, bytesOfWord16]
theorem resultIoError (e : IoErr) : Statement (.resultIoError e) := by
  simp [Statement, layerOf, encode, bytesOfWord16]
theorem selCmd : Statement .selCmd := by simp [Statement, layerOf, encode]
theorem selData : Statement .selData := by simp [Statement, layerOf, encode]
theorem panelDisplayOff : Statement .panelDisplayOff := by simp [Statement, layerOf, encode]
theorem panelClockDiv (v : Byte) : Statement (.panelClockDiv v) := by simp [Statement, layerOf, encode]
theorem panelMuxRatio (v : Byte) : Statement (.panelMuxRatio v) := by simp [Statement, layerOf, encode]
theorem panelDisplayOffset (v : Byte) : Statement (.panelDisplayOffset v) := by simp [Statement, layerOf, encode]
theorem panelSegRemap : Statement .panelSegRemap := by simp [Statement, layerOf, encode]
theorem panelComScanRev : Statement .panelComScanRev := by simp [Statement, layerOf, encode]
theorem panelComPins (v : Byte) : Statement (.panelComPins v) := by simp [Statement, layerOf, encode]
theorem panelContrast (v : Byte) : Statement (.panelContrast v) := by simp [Statement, layerOf, encode]
theorem panelPrecharge (v : Byte) : Statement (.panelPrecharge v) := by simp [Statement, layerOf, encode]
theorem panelVcomh (v : Byte) : Statement (.panelVcomh v) := by simp [Statement, layerOf, encode]
theorem panelResumeRam : Statement .panelResumeRam := by simp [Statement, layerOf, encode]
theorem panelNormalPolarity : Statement .panelNormalPolarity := by simp [Statement, layerOf, encode]
theorem panelScrollOff : Statement .panelScrollOff := by simp [Statement, layerOf, encode]
theorem panelAddrMode (v : Byte) : Statement (.panelAddrMode v) := by simp [Statement, layerOf, encode]
theorem panelChargePump (v : Byte) : Statement (.panelChargePump v) := by simp [Statement, layerOf, encode]
theorem panelDisplayOn : Statement .panelDisplayOn := by simp [Statement, layerOf, encode]
theorem panelSetColRange (first last : Byte) : Statement (.panelSetColRange first last) := by
  simp [Statement, layerOf, encode]
theorem panelSetPageRange (first last : Byte) : Statement (.panelSetPageRange first last) := by
  simp [Statement, layerOf, encode]

end Sys2Proof.Laws.EncodedLength
end

