-- ==== Sys2Proof/Laws/Sequencer.lean ====
section
/-! SUPPORT. What one step of the sequencer can do, and how `drive` and `runOperation` are made of such steps. -/

namespace Sys2Proof.Machine

open Sys2Proof

/-! ## Action lists -/

theorem actions_length_init (p : Config.Params) (a : BusAddr) (h : BusHandle) :
    (actions p (.init a h)).length = 4 + p.bringup.flatten.length := by
  simp only [actions, List.length_append, List.length_map, List.length_cons, List.length_nil]; omega
theorem actions_length_flush (p : Config.Params) : (actions p .updateDisplay).length = 56 := rfl
theorem actions_length_pos (p : Config.Params) (op : Operation) : 0 < (actions p op).length := by
  cases op <;> simp [actions, Config.pages, List.range, List.range.loop, pageActions]

/-- Where each action stands: binding, unmarking and plotting are the first action of their operation; a zero-fill is
`CLEAR`'s only one or a later one of `INIT`; the others are requests, the first ones of neither `INIT` nor `DEINIT`. -/
theorem action_cases {p : Config.Params} {op : Operation} {k : Nat} {a : Action} (h : (actions p op)[k]? = some a) :
    (∃ addr hd, a = .bind addr hd ∧ op = .init addr hd ∧ k = 0) ∨
    (a = .unmark ∧ op = .deinit ∧ k = 0) ∨
    (∃ x y c, a = .plot x y c ∧ op = .setPixel x y c ∧ k = 0) ∨
    (a = .zeroFill ∧ ((op = .clear ∧ k = 0) ∨ (op.isInit = true ∧ 0 < k))) ∨
    (((∃ b, a = .send b) ∨ (∃ ms, a = .delay ms) ∨ ∃ n, a = .burst n) ∧
      (op.isInit = true ∨ op = .deinit → 0 < k)) := by
  cases op with
  | init addr hd =>
    rcases k with _ | k
    · simp only [actions, List.append_assoc, List.cons_append, List.getElem?_cons_zero, Option.some.injEq] at h
      exact .inl ⟨addr, hd, h.symm, rfl, rfl⟩
    · simp only [actions, List.cons_append, List.nil_append, List.getElem?_cons_succ] at h
      have hm := List.mem_of_getElem? h
      simp only [List.mem_append, List.mem_map, List.mem_cons, List.not_mem_nil, or_false] at hm
      rcases hm with ⟨b, _, rfl⟩ | rfl | rfl | rfl
      · exact .inr (.inr (.inr (.inr ⟨.inl ⟨b, rfl⟩, fun _ => Nat.succ_pos k⟩)))
      · exact .inr (.inr (.inr (.inr ⟨.inr (.inl ⟨_, rfl⟩), fun _ => Nat.succ_pos k⟩)))
      · exact .inr (.inr (.inr (.inl ⟨rfl, .inr ⟨rfl, Nat.succ_pos k⟩⟩)))
      · exact .inr (.inr (.inr (.inr ⟨.inl ⟨_, rfl⟩, fun _ => Nat.succ_pos k⟩)))
  | deinit =>
    rcases k with _ | k
    · cases h; exact .inr (.inl ⟨rfl, rfl, rfl⟩)
    · have hm := List.mem_of_getElem? (show [Action.send p.cmdDisplayOff][k]? = some a from h)
      obtain rfl := List.mem_singleton.mp hm
      exact .inr (.inr (.inr (.inr ⟨.inl ⟨_, rfl⟩, fun _ => Nat.succ_pos k⟩)))
  | powerOn =>
    obtain rfl := List.mem_singleton.mp (List.mem_of_getElem? h)
    exact .inr (.inr (.inr (.inr ⟨.inl ⟨_, rfl⟩, fun h => by rcases h with h | h <;> cases h⟩)))
  | powerOff =>
    obtain rfl := List.mem_singleton.mp (List.mem_of_getElem? h)
    exact .inr (.inr (.inr (.inr ⟨.inl ⟨_, rfl⟩, fun h => by rcases h with h | h <;> cases h⟩)))
  | clear =>
    rcases k with _ | k
    · cases h; exact .inr (.inr (.inr (.inl ⟨rfl, .inl ⟨rfl, rfl⟩⟩)))
    · cases h
  | setPixel x y c =>
    rcases k with _ | k
    · cases h; exact .inr (.inr (.inl ⟨x, y, c, rfl, rfl, rfl⟩))
    · cases h
  | updateDisplay =>
    have hm := List.mem_of_getElem? h
    simp only [actions, List.mem_flatMap, pageActions, List.mem_append, List.mem_map, List.mem_singleton] at hm
    refine .inr (.inr (.inr (.inr ⟨?_, fun h => by rcases h with h | h <;> cases h⟩)))
    rcases hm with ⟨n, _, ⟨b, _, rfl⟩ | rfl⟩
    · exact .inl ⟨b, rfl⟩
    · exact .inr (.inr ⟨n, rfl⟩)

/-! ## Completing an action -/

theorem completeAction_more {op : Operation} {k : Nat} (s : State) (h : k + 1 < (actions s.params op).length) :
    completeAction op k s = setSeq (.run op (k + 1)) s := by simp [completeAction, h]

theorem completeAction_last {op : Operation} {k : Nat} (s : State) (h : (actions s.params op).length ≤ k + 1) :
    completeAction op k s = finish .ok (markDone op s) := by simp [completeAction, Nat.not_lt.mpr h]

/-! ## Answers -/

theorem settle_write_ok (op : Operation) (k : Nat) (sel : Selector) (bytes : List Byte) {s : State}
    {rest : List Answer} (h : s.answers = .ok :: rest) :
    settle op k (.write sel bytes) s = completeAction op k (deliver sel bytes (takeAnswer rest s)) := by
  simp [settle, h]

theorem settle_write_err (op : Operation) (k : Nat) (sel : Selector) (bytes : List Byte) {s : State} {e : IoErr}
    {rest : List Answer} (h : s.answers = .err e :: rest) :
    settle op k (.write sel bytes) s = finish (.ioError e) (tear sel bytes (takeAnswer rest s)) := by
  simp [settle, h]

theorem settle_write_none (op : Operation) (k : Nat) (sel : Selector) (bytes : List Byte) {s : State}
    (h : s.answers = []) : settle op k (.write sel bytes) s = s := by simp [settle, h]

theorem settle_delay_done (op : Operation) (k : Nat) (ms : Millis) {s : State} {n : Nat} (h : s.delaysDone = n + 1) :
    settle op k (.delay ms) s = completeAction op k (takeDelay n s) := by simp [settle, h]

theorem settle_delay_none (op : Operation) (k : Nat) (ms : Millis) {s : State} (h : s.delaysDone = 0) :
    settle op k (.delay ms) s = s := by simp [settle, h]

/-- Everything taking an answer can do: wait, complete the action, or end the operation with the transport's error. -/
theorem settle_cases (op : Operation) (k : Nat) (r : Request) (s : State) :
    (settle op k r s = s ∧
      ((∃ sel bytes, r = .write sel bytes ∧ s.answers = []) ∨ ∃ ms, r = .delay ms ∧ s.delaysDone = 0)) ∨
    (∃ sel bytes rest, r = .write sel bytes ∧ s.answers = .ok :: rest ∧
      settle op k r s = completeAction op k (deliver sel bytes (takeAnswer rest s))) ∨
    (∃ sel bytes e rest, r = .write sel bytes ∧ s.answers = .err e :: rest ∧
      settle op k r s = finish (.ioError e) (tear sel bytes (takeAnswer rest s))) ∨
    (∃ ms n, r = .delay ms ∧ s.delaysDone = n + 1 ∧ settle op k r s = completeAction op k (takeDelay n s)) := by
  cases r with
  | write sel bytes =>
    rcases h : s.answers with _ | ⟨_ | e, rest⟩
    · exact .inl ⟨settle_write_none _ _ _ _ h, .inl ⟨_, _, rfl, rfl⟩⟩
    · exact .inr (.inl ⟨_, _, rest, rfl, rfl, settle_write_ok _ _ _ _ h⟩)
    · exact .inr (.inr (.inl ⟨_, _, e, rest, rfl, rfl, settle_write_err _ _ _ _ h⟩))
  | delay ms =>
    rcases h : s.delaysDone with _ | n
    · exact .inl ⟨settle_delay_none _ _ _ h, .inr ⟨_, rfl, rfl⟩⟩
    · exact .inr (.inr (.inr ⟨_, n, rfl, rfl, settle_delay_done _ _ _ h⟩))

/-! ## One step -/

theorem seqStep_idle {s : State} (h : s.seq = .idle) : seqStep s = .next s := by simp [seqStep, h]

theorem seqStep_waiting {s : State} {op : Operation} {k : Nat} {r : Request} (h : s.seq = .run op k)
    (hr : s.request = some r) : seqStep s = .next (settle op k r s) := by simp [seqStep, h, hr]

theorem seqStep_action {s : State} {op : Operation} {k : Nat} {a : Action} (h : s.seq = .run op k)
    (hr : s.request = none) (ha : (actions s.params op)[k]? = some a) : seqStep s = startAction op k a s := by
  simp [seqStep, h, hr, ha]

/-- An action that is a request issues it and takes the answer that has come. -/
theorem startAction_request (op : Operation) (k : Nat) {a : Action} {r : Request} {s : State}
    (h : requestOf a s = some r) : startAction op k a s = .next (settle op k r (issue r s)) := by
  cases a <;> simp [requestOf] at h <;> subst h <;> rfl

/-- Everything beginning an action can do: an effect on the block alone, or a request. -/
theorem startAction_cases {op : Operation} {k : Nat} {a : Action} {s t : State} (h : startAction op k a s = .next t) :
    (∃ addr hd, a = .bind addr hd ∧ t = completeAction op k (bindContext addr hd s)) ∨
    (a = .unmark ∧ t = completeAction op k (setInitialized false s)) ∨
    (a = .zeroFill ∧ t = completeAction op k (setFb [] s)) ∨
    (∃ x y c v, a = .plot x y c ∧ pageOf y < 8 ∧ x.toNat < 128 ∧
      t = completeAction op k (setFb (Memory.write s.fb (linear (pageOf y) x.toNat) v) s)) ∨
    (∃ r, requestOf a s = some r ∧ t = settle op k r (issue r s)) := by
  cases a with
  | bind addr hd => cases h; exact .inl ⟨_, _, rfl, rfl⟩
  | unmark => cases h; exact .inr (.inl ⟨rfl, rfl⟩)
  | send b => cases h; exact .inr (.inr (.inr (.inr ⟨_, rfl, rfl⟩)))
  | delay ms => cases h; exact .inr (.inr (.inr (.inr ⟨_, rfl, rfl⟩)))
  | zeroFill => cases h; exact .inr (.inr (.inl ⟨rfl, rfl⟩))
  | plot x y c =>
    simp only [startAction, orNoByte] at h
    split at h
    · rename_i u hu
      obtain ⟨w, hw, rfl⟩ := Option.map_eq_some_iff.mp hu
      obtain ⟨hp, hc, v, rfl⟩ := plotPixel_cases hw
      cases h
      exact .inr (.inr (.inr (.inl ⟨x, y, c, v, rfl, hp, hc, rfl⟩)))
    · cases h
  | burst p => cases h; exact .inr (.inr (.inr (.inr ⟨_, rfl, rfl⟩)))

/-- Everything one step of the sequencer can do. -/
theorem seqStep_cases {s t : State} (h : seqStep s = .next t) :
    (s.seq = .idle ∧ t = s) ∨
    (∃ op k r, s.seq = .run op k ∧ s.request = some r ∧ t = settle op k r s) ∨
    (∃ op k a, s.seq = .run op k ∧ s.request = none ∧ (actions s.params op)[k]? = some a ∧ startAction op k a s = .next t) := by
  unfold seqStep at h
  split at h
  · rename_i hs; cases h; exact .inl ⟨hs, rfl⟩
  · rename_i op k hs
    split at h
    · rename_i r hr; cases h; exact .inr (.inl ⟨op, k, r, hs, hr, rfl⟩)
    · rename_i hr
      split at h
      · rename_i a ha; exact .inr (.inr ⟨op, k, a, hs, hr, ha, h⟩)
      · cases h

/-! ## Many steps -/

theorem drive_go {n : Nat} {s t : State} (h : seqStep s = .next t) (ht : settled t = false) :
    drive (n + 1) s = drive n t := by simp [drive, h, ht]

theorem drive_stop {n : Nat} {s t : State} (h : seqStep s = .next t) (ht : settled t = true) :
    drive (n + 1) s = .next t := by simp [drive, h, ht]

/-- What every step of the sequencer keeps, `drive` keeps. -/
theorem drive_keeps {P : State → Prop} (hP : ∀ s t, P s → seqStep s = .next t → P t) {n : Nat} {s t : State}
    (h : drive n s = .next t) (hs : P s) : P t := by
  induction n generalizing s with
  | zero => cases h; exact hs
  | succ n ih =>
    simp only [drive] at h
    split at h
    · rename_i u hu
      split_ifs at h with hset
      · cases h; exact hP _ _ hs hu
      · exact ih h (hP _ _ hs hu)
    · cases h
    · cases h

/-! ## A whole operation -/

theorem runOperation_busy {s : State} {op op' : Operation} {k : Nat} (h : s.seq = .run op' k) :
    runOperation op s = .next s := by simp [runOperation, h]

/-- A check fails: only the result is new (R161). -/
theorem runOperation_invalid {s : State} {op : Operation} (h : s.seq = .idle) (ha : argsOk op s = false) :
    runOperation op s = .next (finish .invalidArgument s) := by
  simp [runOperation, h, accept, ha, settled, Seq.isIdle]

/-- The checks pass: the actions run from the first. -/
theorem runOperation_accepted {s : State} {op : Operation} (h : s.seq = .idle) (hr : s.request = none)
    (ha : argsOk op s = true) :
    runOperation op s = drive (actions s.params op).length (setSeq (.run op 0) s) := by
  simp [runOperation, h, accept, ha, settled, Seq.isIdle, hr]

/-- What acceptance and every step of the sequencer keep, an operation keeps. -/
theorem runOperation_keeps {P : State → Prop} (hP : ∀ s t, P s → seqStep s = .next t → P t)
    {op : Operation} {s t : State} (h : runOperation op s = .next t)
    (hacc : s.seq = .idle → P (accept op s)) (hs : P s) : P t := by
  unfold runOperation at h
  split at h
  · cases h; exact hs
  · rename_i hi
    split_ifs at h with hset
    · cases h; exact hacc hi
    · exact drive_keeps hP h (hacc hi)

/-- Finishing with nothing else changed, from a state with nothing running. -/
theorem finish_eq_onlyResult (r : Result) {s : State} (h : Ready s) : finish r s = onlyResult r s := by
  obtain ⟨h1, h2⟩ := h
  cases s
  simp_all [finish, onlyResult]

/-- The state after a run of command writes of an operation that were answered `OK`. -/
def sentBytes (op : Operation) (k : Nat) (bytes : List Byte) (rest : List Answer) (s : State) : State :=
  { s with
    seq := .run op (k + bytes.length)
    answers := rest
    trace := s.trace ++ cmdEvents s.busHandle s.busAddr bytes
    channel := if bytes = [] then s.channel else .cmd
    panel := s.panel.take .cmd bytes }

/-- A run of command writes answered `OK`: each byte is sent, delivered, and the next action follows. -/
theorem drive_sends {op : Operation} {bytes : List Byte} {n k : Nat} {s : State} {rest : List Answer}
    (hact : ∀ j, (hj : j < bytes.length) → (actions s.params op)[k + j]? = some (.send (bytes[j]'hj)))
    (hlen : k + bytes.length < (actions s.params op).length) (hq : s.seq = .run op k) (hr : s.request = none)
    (hans : s.answers = List.replicate bytes.length .ok ++ rest) :
    drive (bytes.length + n) s = drive n (sentBytes op k bytes rest s) := by
  induction bytes generalizing k s with
  | nil =>
    have : sentBytes op k [] rest s = s := by
      cases s
      simp_all [sentBytes, cmdEvents, Panel.take]
    simp [this]
  | cons b more ih =>
    have ha : (actions s.params op)[k]? = some (.send b) := hact 0 (by simp)
    have hans' : (issue (.write .cmd [b]) s).answers = .ok :: (List.replicate more.length .ok ++ rest) := by
      simpa [List.replicate_succ] using hans
    have hstep : seqStep s = .next (setSeq (.run op (k + 1)) (deliver .cmd [b]
        (takeAnswer (List.replicate more.length .ok ++ rest) (issue (.write .cmd [b]) s)))) := by
      rw [seqStep_action hq hr ha, startAction_request op k (by rfl), settle_write_ok op k _ _ hans',
        completeAction_more _ (by
          simp only [List.length_cons, deliver_params, takeAnswer_params, issue_params] at hlen ⊢; omega)]
    rw [List.length_cons, Nat.add_right_comm, drive_go hstep (by simp [settled, Seq.isIdle]),
      ih (k := k + 1) (fun j hj => ?_) (by
        simp only [List.length_cons, setSeq_params, deliver_params, takeAnswer_params, issue_params] at hlen ⊢
        omega) (by simp) (by simp) (by simp)]
    · congr 1
      cases s
      simp only [sentBytes, deliver, setPanel, setChannel, takeAnswer, issue, setSeq, eventOf, cmdEvents, Panel.take,
        List.length_cons, List.map_cons, List.foldl_cons, List.append_assoc] at hr ⊢
      subst hr
      have hk : k + 1 + more.length = k + (more.length + 1) := by omega
      simp [hk]
    · have := hact (j + 1) (by simpa using hj)
      rw [Nat.add_assoc, Nat.add_comm 1 j]
      exact this

end Sys2Proof.Machine
end

