-- ==== Sys2Proof/Laws/Software.lean ====
section
/-! SUPPORT. What the software layer issues: every point of a line lies between its endpoints, so on the panel. -/

namespace Sys2Proof.Machine

open Sys2Proof

/-- What the error term of a line with steps `dx`, `dy` stays between, so that the longer direction moves in every
iteration of R121's loop. -/
def LineErr (dx dy err : Int) : Prop :=
  (dy < dx ∧ dx - 2 * dy ≤ 2 * err ∧ 2 * err < 3 * dx - 2 * dy) ∨
  (dx < dy ∧ 2 * dx - 3 * dy < 2 * err ∧ 2 * err ≤ 2 * dx - dy) ∨
  (dx = dy ∧ err = 0)

/-- The longer direction has moved `a` or `b` times and the loop has `n` points to go. -/
def LineFuel (dx dy a b : Int) (n : Nat) : Prop := (dy ≤ dx → a + n ≤ dx + 1) ∧ (dx ≤ dy → b + n ≤ dy + 1)

/-- While the loop has a point to go, neither direction has moved beyond the line's end. -/
theorem lineErr_bounds {dx dy a b : Int} {n : Nat} (hx : 0 ≤ dx) (hy : 0 ≤ dy) (hn : LineFuel dx dy a b (n + 1))
    (h : LineErr dx dy ((b + 1) * dx - (a + 1) * dy)) : a ≤ dx ∧ b ≤ dy := by
  unfold LineFuel at hn
  rcases h with ⟨hlt, -, hhi⟩ | ⟨hlt, hlo, -⟩ | ⟨rfl, -⟩
  · have hadx : a ≤ dx := by omega
    refine ⟨hadx, ?_⟩
    by_contra hc
    nlinarith [mul_le_mul_of_nonneg_right hadx hy, mul_le_mul_of_nonneg_right (show dy + 1 ≤ b by omega) hx]
  · have hbdy : b ≤ dy := by omega
    refine ⟨?_, hbdy⟩
    by_contra hc
    nlinarith [mul_le_mul_of_nonneg_right hbdy hx, mul_le_mul_of_nonneg_right (show dx + 1 ≤ a by omega) hy]
  · omega

/-- Every point of the loop lies within the line's box. -/
theorem lineLoop_points {x0 y0 x1 y1 dx dy sx sy : Int} {c : Color} (hx : 0 ≤ dx) (hy : 0 ≤ dy) (n : Nat) :
    ∀ (a b : Int), 0 ≤ a → 0 ≤ b → LineFuel dx dy a b n → LineErr dx dy ((b + 1) * dx - (a + 1) * dy) →
      ∀ i ∈ lineLoop n (x0 + sx * a) (y0 + sy * b) x1 y1 dx dy sx sy ((b + 1) * dx - (a + 1) * dy) c,
        ∃ p q : Int, 0 ≤ p ∧ p ≤ dx ∧ 0 ≤ q ∧ q ≤ dy ∧ i = plotOp (x0 + sx * p) (y0 + sy * q) c := by
  induction n with
  | zero => intro a b _ _ _ _ i hi; simp [lineLoop] at hi
  | succ n ih =>
    intro a b ha hb hn he i hi
    have hab := lineErr_bounds hx hy hn he
    rw [lineLoop, List.mem_cons] at hi
    rcases hi with rfl | hi
    · exact ⟨a, b, ha, hab.1, hb, hab.2, rfl⟩
    split at hi
    · simp at hi
    set err := (b + 1) * dx - (a + 1) * dy with herr
    have ex : x0 + sx * (a + 1) = x0 + sx * a + sx := by ring
    have ey : y0 + sy * (b + 1) = y0 + sy * b + sy := by ring
    have exy : (b + 1 + 1) * dx - (a + 1 + 1) * dy = err - dy + dx := by rw [herr]; ring
    have exx : (b + 1) * dx - (a + 1 + 1) * dy = err - dy + 0 := by rw [herr]; ring
    have eyy : (b + 1 + 1) * dx - (a + 1) * dy = err - 0 + dx := by rw [herr]; ring
    unfold LineErr at he
    unfold LineFuel at hn
    by_cases h1 : 2 * err > -dy <;> by_cases h2 : 2 * err < dx
    all_goals simp only [h1, h2, if_true, if_false] at hi
    · refine ih (a + 1) (b + 1) (by omega) (by omega) ?_ ?_ i (by rw [exy, ex, ey]; exact hi)
      · unfold LineFuel; omega
      · rw [exy]; unfold LineErr; omega
    · refine ih (a + 1) b (by omega) (by omega) ?_ ?_ i (by rw [exx, ex]; exact hi)
      · unfold LineFuel; omega
      · rw [exx]; unfold LineErr; omega
    · refine ih a (b + 1) (by omega) (by omega) ?_ ?_ i (by rw [eyy, ey]; exact hi)
      · unfold LineFuel; omega
      · rw [eyy]; unfold LineErr; omega
    · obtain rfl : n = 0 := by omega
      simp [lineLoop] at hi

/-- Every operation of a line whose endpoints are on the panel is the `SET_PIXEL` of a point of the panel (R121). -/
theorem linePoints_on_panel {x0 y0 x1 y1 : Nat} {c : Color} (h0 : x0 < 128) (h1 : y0 < 64) (h2 : x1 < 128)
    (h3 : y1 < 64) : ∀ i ∈ linePoints x0 y0 x1 y1 c, ∃ p q : Nat, p < 128 ∧ q < 64 ∧ i = plotOp p q c := by
  intro i hi
  have hp := lineLoop_points (x0 := x0) (y0 := y0) (x1 := x1) (y1 := y1) (sx := towards x0 x1) (sy := towards y0 y1)
    (c := c) (Int.natCast_nonneg ((x1 : Int) - x0).natAbs) (Int.natCast_nonneg ((y1 : Int) - y0).natAbs)
    (max ((x1 : Int) - x0).natAbs ((y1 : Int) - y0).natAbs + 1) 0 0 le_rfl le_rfl
    (by unfold LineFuel; omega) (by unfold LineErr; omega) i (by simpa [linePoints] using hi)
  obtain ⟨p, q, hp0, hp1, hq0, hq1, rfl⟩ := hp
  have hx : 0 ≤ x0 + towards x0 x1 * p ∧ x0 + towards x0 x1 * p < 128 := by
    unfold towards; split <;> omega
  have hy : 0 ≤ y0 + towards y0 y1 * q ∧ y0 + towards y0 y1 * q < 64 := by
    unfold towards; split <;> omega
  refine ⟨(x0 + towards x0 x1 * p).toNat, (y0 + towards y0 y1 * q).toNat, by omega, by omega, ?_⟩
  rw [Int.toNat_of_nonneg hx.1, Int.toNat_of_nonneg hy.1]

end Sys2Proof.Machine
end

