-- ==== Sys2Proof/Laws/Step.lean ====
section
/-! SUPPORT. What a step, a fetch and an instruction can do, said once. -/

namespace Sys2Proof.Machine

open Sys2Proof

/-! ## Instructions -/

/-- A host command's meaning is its operation. -/
theorem exec_host {i : Instr} {op : Operation} (h : operationOf i = some op) (s : State) :
    exec i s = runOperation op s := by cases i <;> cases h <;> rfl

/-- The host commands are the instructions of the command layer. -/
theorem operationOf_isSome_iff (i : Instr) : (operationOf i).isSome = true ↔ layerOf i = .hostCommand := by
  cases i <;> simp [operationOf, layerOf]

/-- A panel command's meaning is its effect on the panel. -/
theorem exec_panel {i : Instr} (h : layerOf i = .panelCommand) (s : State) :
    exec i s = .next (setPanel (Panel.effect i s.panel) s) := by cases i <;> first | rfl | cases h

/-- A selector's meaning selects a channel. -/
theorem exec_selector {i : Instr} (h : layerOf i = .transportSelector) (s : State) :
    ∃ sel, exec i s = .next (setChannel sel s) := by
  cases i <;> first | exact ⟨_, rfl⟩ | cases h

/-- A result word's meaning ends an operation. -/
theorem exec_result {i : Instr} (h : layerOf i = .hostResult) (s : State) :
    ∃ r, exec i s = .next (finish r s) := by
  cases i <;> first | exact ⟨_, rfl⟩ | cases h

/-! ## Steps -/

theorem step_rst {s : State} (h : s.rst = true) : step s = .next (applyReset s) := by simp [step, h]

theorem step_run {s : State} {op : Operation} {k : Nat} (hr : s.rst = false) (h : s.seq = .run op k) :
    step s = seqStep s := by simp [step, hr, h]

theorem step_idle {s : State} (hr : s.rst = false) (h : s.seq = .idle) : step s = stepIdle s := by simp [step, hr, h]

theorem stepIdle_instr {s t : State} {i : Instr} (h : fetch s = .instr i t) : stepIdle s = exec i t := by
  simp [stepIdle, h]

/-- Everything a fetch can give: nothing; an instruction of the port's layer, with the offer taken; an illegal
command word, which is `InvalidArgument`; bytes for the panel; or a word no instruction has, which is refused. -/
theorem fetch_cases (s : State) :
    (s.port = [] ∧ fetch s = .nothing) ∨
    (∃ i p, fetch s = .instr i (setPort p s)) ∨
    (∃ w p, s.port = .command w :: p ∧ decodeCommand w = none ∧
      fetch s = .handled (.next (finish .invalidArgument (setPort p s)))) ∨
    (∃ p, fetch s = .handled (.next (setPort p s))) ∨
    (∃ b p, fetch s = .handled (.next (setPanel (s.panel.cmdByte b) (setPort p s)))) ∨
    (∃ b p, fetch s = .handled (.next (setPanel (s.panel.dataByte b) (setPort p s)))) ∨
    (∃ w p, s.port = .result w :: p ∧ decodeResult w = none ∧
      fetch s = .handled (.refused (.resultNeverProduced w))) ∨
    (∃ b p, s.port = .selector b :: p ∧ decodeSelector b = none ∧
      fetch s = .handled (.refused (.selectorNeverSent b))) := by
  rcases hp : s.port with _ | ⟨o, rest⟩
  · left; simp [fetch, hp]
  rcases o with w | w | b | bytes
  · rcases hd : decodeCommand w with _ | i
    · right; right; left; exact ⟨w, rest, rfl, hd, by simp [fetch, hp, hd, instrOr, illegalCommand]⟩
    · right; left; exact ⟨i, rest, by simp [fetch, hp, hd, instrOr]⟩
  · rcases hd : decodeResult w with _ | i
    · right; right; right; right; right; right; left
      exact ⟨w, rest, rfl, hd, by simp [fetch, hp, hd, instrOr]⟩
    · right; left; exact ⟨i, rest, by simp [fetch, hp, hd, instrOr]⟩
  · rcases hd : decodeSelector b with _ | i
    · right; right; right; right; right; right; right
      exact ⟨b, rest, rfl, hd, by simp [fetch, hp, hd, instrOr]⟩
    · right; left; exact ⟨i, rest, by simp [fetch, hp, hd, instrOr]⟩
  · rcases bytes with _ | ⟨b, more⟩
    · right; right; right; left; exact ⟨rest, by simp [fetch, hp]⟩
    · rcases hc : s.channel with _ | _
      · rcases hpend : s.panel.pending with _ | ⟨_, _⟩
        · rcases hd : decodePanel (b :: more) with ⟨i, after⟩ | why
          · right; left; exact ⟨i, _, by simp only [fetch, hp, fetchBus, hc, hpend, hd]; rfl⟩
          · right; right; right; right; left
            exact ⟨b, _, by simp only [fetch, hp, fetchBus, hc, hpend, hd, feedCommand]; rfl⟩
        · right; right; right; right; left
          exact ⟨b, _, by simp only [fetch, hp, fetchBus, hc, hpend, feedCommand]; rfl⟩
      · right; right; right; right; right; left
        exact ⟨b, _, by simp only [fetch, hp, fetchBus, hc]; rfl⟩

/-- Everything a step can do. -/
theorem step_cases {s t : State} (h : step s = .next t) :
    (s.rst = true ∧ t = applyReset s) ∨
    (s.rst = false ∧ (∃ op k, s.seq = .run op k) ∧ seqStep s = .next t) ∨
    (s.rst = false ∧ s.seq = .idle ∧
      (t = s ∨ (∃ i p, fetch s = .instr i (setPort p s) ∧ exec i (setPort p s) = .next t) ∨
        (∃ p, t = finish .invalidArgument (setPort p s)) ∨ (∃ p, t = setPort p s) ∨
        (∃ b p, t = setPanel (s.panel.cmdByte b) (setPort p s)) ∨
        (∃ b p, t = setPanel (s.panel.dataByte b) (setPort p s)))) := by
  rcases hr : s.rst with _ | _
  · rcases hs : s.seq with _ | ⟨op, k⟩
    · right; right
      refine ⟨rfl, rfl, ?_⟩
      rw [step_idle hr hs, stepIdle] at h
      rcases fetch_cases s with ⟨_, hf⟩ | ⟨i, p, hf⟩ | ⟨w, p, _, _, hf⟩ | ⟨p, hf⟩ | ⟨b, p, hf⟩ | ⟨b, p, hf⟩ |
          ⟨w, p, _, _, hf⟩ | ⟨b, p, _, _, hf⟩ <;> rw [hf] at h
      · cases h; exact .inl rfl
      · exact .inr (.inl ⟨i, p, hf, h⟩)
      · cases h; exact .inr (.inr (.inl ⟨p, rfl⟩))
      · cases h; exact .inr (.inr (.inr (.inl ⟨p, rfl⟩)))
      · cases h; exact .inr (.inr (.inr (.inr (.inl ⟨b, p, rfl⟩))))
      · cases h; exact .inr (.inr (.inr (.inr (.inr ⟨b, p, rfl⟩))))
      · cases h
      · cases h
    · right; left; exact ⟨rfl, ⟨op, k, rfl⟩, by rw [← step_run hr hs]; exact h⟩
  · left; rw [step_rst hr] at h; cases h; exact ⟨rfl, rfl⟩

end Sys2Proof.Machine
end

