-- ==== Sys2Proof/Tests/Slice0.lean ====
section
/-! SUPPORT. Tests: expected results come from the spec's encodings and from its test vectors (95_test_vectors.md,
named V-…, E…), and a witness for the hypotheses of every statement that has some. -/

namespace Sys2Proof.Tests

open Sys2Proof Sys2Proof.Machine

/-! ## Small states and what is asked of them -/

/-- Whether an outcome is a next state with a property. -/
def nextWith (P : State → Bool) (o : Host.Outcome State Fault Refusal) : Bool :=
  match o with
  | .next t => P t
  | .fault _ => false
  | .refused _ => false

theorem exists_of_nextWith {P : State → Bool} {o : Host.Outcome State Fault Refusal} (h : nextWith P o = true) :
    ∃ t, o = .next t ∧ P t = true := by
  cases o with
  | next t => exact ⟨t, rfl, h⟩
  | fault _ => cases h
  | refused _ => cases h

/-- Reset, with answers of the transport and one completed delay standing by. -/
def fresh (answers : List Answer) : State := { State.reset with answers := answers, delaysDone := 1 }

/-- An initialised context at address 0x3C, handle 0, with these bytes in the buffer, the panel as the bring-up
leaves it. -/
def live (fb : Memory) (answers : List Answer) : State :=
  { fresh answers with
    fb := fb, initialized := true, busAddr := 0x3C, tpBound := true, tmBound := true
    panel := { Panel.reset with addrMode := 0x00 } }

/-- `n` writes answered `OK`. -/
def oks (n : Nat) : List Answer := List.replicate n .ok

/-- `C[b]` at address 0x3C, handle `h`. -/
def sent (h : BusHandle) (bytes : List Byte) : List Event := bytes.map fun b => .write h 0x3C .cmd [b]

/-- The result and the sequencer after an operation that ended. -/
def ended (r : Result) (t : State) : Bool := t.lastResult == r && t.seq == .idle && t.responses == [r.word]

/-! ## Well-formedness: the operand types leave nothing to refuse (WellFormed.lean) -/

/-- The operands at the ends of their ranges, and range bytes that name no column and no page (R181: any `a`, `b`). -/
theorem test_wellFormed :
    WellFormed (.panelSetColRange 0xFF 0x80) = true ∧ WellFormed (.panelSetPageRange 0x08 0xFF) = true ∧
      WellFormed (.setPixel 0xFF 0xFF .on) = true ∧ WellFormed (.init 0x7F 0xFF) = true := by decide

/-! ## Decoding: words written out from the encodings (30_encoding.md R66 to R70, R73, R77 to R79) -/

/-- V-D2 to V-D4, V-D7, V-D9 to V-D14, V-D16. -/
theorem test_decode_commands :
    decodeCommand 0x1000003C = some (.init 0x3C 0) ∧ decodeCommand 0x1000FF7F = some (.init 0x7F 0xFF) ∧
      decodeCommand 0x20000000 = some .deinit ∧ decodeCommand 0x30000000 = some .powerOn ∧
      decodeCommand 0x40000000 = some .powerOff ∧ decodeCommand 0x50000000 = some .clear ∧
      decodeCommand 0x60010A05 = some (.setPixel 5 10 .on) ∧ decodeCommand 0x60002040 = some (.setPixel 64 32 .off) ∧
      decodeCommand 0x6001FFFF = some (.setPixel 255 255 .on) ∧ decodeCommand 0x70000000 = some .updateDisplay := by
  decide

/-- V-D1, V-D5, V-D6, V-D8, V-D15, V-D17. -/
theorem test_decode_illegal :
    decodeCommand 0x00000000 = none ∧ decodeCommand 0x100000BC = none ∧ decodeCommand 0x1001003C = none ∧
      decodeCommand 0x20000001 = none ∧ decodeCommand 0x60020000 = none ∧ decodeCommand 0x80000000 = none ∧
      decodeCommand 0xFFFFFFFF = none := by decide

/-- R70; 95_test_vectors.md, "Result words". -/
theorem test_decode_results :
    decodeResult 0x0000 = some .resultOk ∧ decodeResult 0x0100 = some .resultInvalidArgument ∧
      decodeResult 0x0207 = some (.resultIoError 0x07) ∧ decodeResult 0x02FF = some (.resultIoError 0xFF) ∧
      decodeResult 0x0300 = none ∧ decodeResult 0x0101 = none ∧ decodeResult 0x0400 = none := by decide

/-- R73. -/
theorem test_decode_selectors :
    decodeSelector 0x00 = some .selCmd ∧ decodeSelector 0x40 = some .selData ∧ decodeSelector 0x80 = none := by decide

/-- The bring-up groups in the document's order (R78), byte for byte the trace of 95_test_vectors.md. -/
theorem test_decode_bringup :
    decodePanel [0xAE] = .instr .panelDisplayOff [] ∧ decodePanel [0xD5, 0x80] = .instr (.panelClockDiv 0x80) [] ∧
      decodePanel [0xA8, 0x3F] = .instr (.panelMuxRatio 0x3F) [] ∧
      decodePanel [0xD3, 0x00] = .instr (.panelDisplayOffset 0x00) [] ∧
      decodePanel [0xA1] = .instr .panelSegRemap [] ∧ decodePanel [0xC8] = .instr .panelComScanRev [] ∧
      decodePanel [0xDA, 0x12] = .instr (.panelComPins 0x12) [] ∧
      decodePanel [0x81, 0xCF] = .instr (.panelContrast 0xCF) [] ∧
      decodePanel [0xD9, 0xF1] = .instr (.panelPrecharge 0xF1) [] := by decide

theorem test_decode_bringup_rest :
    decodePanel [0xDB, 0x40] = .instr (.panelVcomh 0x40) [] ∧ decodePanel [0xA4] = .instr .panelResumeRam [] ∧
      decodePanel [0xA6] = .instr .panelNormalPolarity [] ∧ decodePanel [0x2E] = .instr .panelScrollOff [] ∧
      decodePanel [0x20, 0x00] = .instr (.panelAddrMode 0x00) [] ∧
      decodePanel [0x8D, 0x14] = .instr (.panelChargePump 0x14) [] ∧
      decodePanel [0xAF] = .instr .panelDisplayOn [] := by decide

/-- The cursor-set pair of page 4 (R77), an unfinished command, and a byte that begins none. -/
theorem test_decode_cursor :
    decodePanel [0x21, 0x00, 0x7F, 0x22, 0x04, 0x07] = .instr (.panelSetColRange 0x00 0x7F) [0x22, 0x04, 0x07] ∧
      decodePanel [0x22, 0x04, 0x07] = .instr (.panelSetPageRange 0x04 0x07) [] ∧
      decodePanel [0x22, 0x04] = .reject .truncated ∧ decodePanel [0xFF] = .reject .unknownPanelByte ∧
      decodePanel [0x21, 0x00, 0xAE] = .instr (.panelSetColRange 0x00 0xAE) [] := by decide

/-- A table row with two parameter bytes: the bits above `nbits` are zeros. -/
theorem test_decode_table :
    decodeTableWord 8 0x21 = some (.panelSetColRange 0 0) ∧ decodeTableWord 32 0x60000000 = some (.setPixel 0 0 .off) ∧
      decodeTableWord 16 0x0200 = some (.resultIoError 0) ∧ decodeTableWord 8 0x40 = some .selData := by decide

/-! ## INIT -/

/-- V-I1, E7. -/
theorem test_init_ok :
    nextWith (fun t => ended .ok t && t.initialized && t.busAddr == 0x3C && t.tpBound && t.tmBound && t.fb == [] &&
      t.trace == sent 0 [0xAE, 0xD5, 0x80, 0xA8, 0x3F, 0xD3, 0x00, 0xA1, 0xC8, 0xDA, 0x12, 0x81, 0xCF] ++
        sent 0 [0xD9, 0xF1, 0xDB, 0x40, 0xA4, 0xA6, 0x2E, 0x20, 0x00, 0x8D, 0x14] ++ [.delay 100] ++ sent 0 [0xAF])
      (exec (.init 0x3C 0) (fresh (oks 25))) = true := by decide +kernel

/-- V-I5: the tenth write fails. -/
theorem test_init_aborts :
    nextWith (fun t => ended (.ioError 0x11) t && !t.initialized && t.busHandle == 1 && t.fb == [(258, 0x02)] &&
      t.trace == sent 1 [0xAE, 0xD5, 0x80, 0xA8, 0x3F, 0xD3, 0x00, 0xA1, 0xC8, 0xDA])
      (exec (.init 0x3C 1) (live [(258, 0x02)] (oks 9 ++ [.err 0x11]))) = true := by decide +kernel

/-! ## DEINIT, POWER_ON, POWER_OFF -/

/-- V-DE2: the flag is cleared although the write fails. -/
theorem test_deinit_error :
    nextWith (fun t => ended (.ioError 0x05) t && !t.initialized && t.tpBound && t.trace == sent 0 [0xAE])
      (exec .deinit (live [] [.err 0x05])) = true := by decide +kernel

/-- V-DE3: nothing is bound. -/
theorem test_deinit_unbound :
    nextWith (fun t => ended .invalidArgument t && t.trace == []) (exec .deinit (fresh [.ok])) = true := by
  decide +kernel

/-- V-PW2: `POWER_ON` needs no initialised context. -/
theorem test_powerOn :
    nextWith (fun t => ended .ok t && !t.initialized && t.panel.on && t.trace == sent 0 [0xAF])
      (exec .powerOn { live [] [.ok] with initialized := false }) = true := by decide +kernel

/-- V-PW4. -/
theorem test_powerOn_error :
    nextWith (fun t => ended (.ioError 0x09) t && t.initialized && t.trace == sent 0 [0xAF])
      (exec .powerOn (live [] [.err 0x09])) = true := by decide +kernel

/-- V-PW1: the context stays initialised. -/
theorem test_powerOff :
    nextWith (fun t => ended .ok t && t.initialized && !t.panel.on && t.trace == sent 0 [0xAE])
      (exec .powerOff (live [] [.ok])) = true := by decide +kernel

/-! ## CLEAR, SET_PIXEL -/

/-- V-CL1. -/
theorem test_clear :
    nextWith (fun t => ended .ok t && t.fb == [] && t.trace == [])
      (exec .clear (live [(401, 0xA5), (1023, 0xFF)] [])) = true := by decide +kernel

/-- V-CL2. -/
theorem test_clear_uninitialised :
    nextWith (fun t => ended .invalidArgument t && t.fb == [(137, 0x02)])
      (exec .clear { live [(137, 0x02)] [] with initialized := false }) = true := by decide +kernel

/-- V-SP3: linear address 133 (E11), the other bits kept. -/
theorem test_setPixel_on :
    nextWith (fun t => ended .ok t && t.fb == [(133, 0x85)])
      (exec (.setPixel 5 10 .on) (live [(133, 0x81)] [])) = true := by decide +kernel

/-- V-SP6 and V-SP8: clearing bit 0 of `fb[4][64]`; row 64 is off the panel. -/
theorem test_setPixel_off :
    nextWith (fun t => ended .ok t && t.fb == [(576, 0xFE)])
        (exec (.setPixel 64 32 .off) (live [(576, 0xFF)] [])) = true ∧
      nextWith (fun t => ended .invalidArgument t && t.fb == [])
        (exec (.setPixel 0 64 .on) (live [] [])) = true := by decide +kernel

/-! ## UPDATE_DISPLAY -/

/-- V-F4: the start-page byte of page 0 fails; and a write that is never answered (R177): no result. -/
theorem test_flush_aborts :
    nextWith (fun t => ended (.ioError 0x03) t && t.initialized && t.trace == sent 0 [0x21, 0x00, 0x7F, 0x22, 0x00])
        (exec .updateDisplay (live [] (oks 4 ++ [.err 0x03]))) = true ∧
      nextWith (fun t => t.seq == .run .updateDisplay 3 && t.responses == [] && t.request == some (.write .cmd [0x22]))
        (exec .updateDisplay (live [] (oks 3))) = true := by decide +kernel

/-- V-F2: 56 transactions, the first and the last burst among them. -/
theorem test_flush_ok :
    nextWith (fun t => ended .ok t && t.trace.length == 56 &&
      t.trace[6]? == some (.write 0 0x3C .data (0x01 :: List.replicate 127 0x00)) &&
      t.trace[55]? == some (.write 0 0x3C .data (List.replicate 127 0x00 ++ [0x80])))
      (exec .updateDisplay (live [(0, 0x01), (133, 0x04), (1023, 0x80)] (oks 56))) = true := by decide +kernel

/-! ## Result words, selectors, panel commands, one step each -/

/-- R69: an illegal word in any state is `InvalidArgument` (0x0100). -/
theorem test_step_illegal :
    nextWith (fun t => ended .invalidArgument t && t.trace == [] && t.port == [] && t.initialized)
      (step { live [] [] with port := [.command 0x00000000] }) = true := by decide +kernel

theorem test_step_result :
    nextWith (fun t => t.lastResult == .ioError 0x07 && t.seq == .idle && t.responses == [0x0207])
      (step { live [] [] with port := [.result 0x0207] }) = true := by decide +kernel

theorem test_step_result_ok :
    nextWith (fun t => t.lastResult == .ok && t.responses == [0x0000])
        (step { live [] [] with port := [.result 0x0000] }) = true ∧
      nextWith (fun t => t.lastResult == .invalidArgument && t.responses == [0x0100])
        (step { live [] [] with port := [.result 0x0100] }) = true := by decide +kernel

theorem test_step_selectors :
    nextWith (fun t => t.channel == .data) (step { live [] [] with port := [.selector 0x40] }) = true ∧
      nextWith (fun t => t.channel == .cmd)
        (step { live [] [] with port := [.selector 0x00], channel := .data }) = true := by decide +kernel

/-- One bus command a step: display on, display off, the two ranges (R181). -/
theorem test_step_panel_r181 :
    nextWith (fun t => t.panel.on && t.port == []) (step { live [] [] with port := [.bus [0xAF]] }) = true ∧
      nextWith (fun t => !t.panel.on)
        (step { live [] [] with port := [.bus [0xAE]], panel := { Panel.reset with on := true } }) = true ∧
      nextWith (fun t => t.panel.colLo == 0x10 && t.panel.colHi == 0x20 && t.panel.col == 0x10 && t.panel.page == 0x00)
        (step { live [] [] with port := [.bus [0x21, 0x10, 0x20]] }) = true ∧
      nextWith (fun t => t.panel.pageLo == 0x03 && t.panel.pageHi == 0x07 && t.panel.page == 0x03 && t.panel.col == 0x00)
        (step { live [] [] with port := [.bus [0x22, 0x03, 0x07]] }) = true := by decide +kernel

/-- One bus command a step: the settings of R78, groups 2 to 8. -/
theorem test_step_panel_settings :
    nextWith (fun t => t.panel.clockDiv == 0x91) (step { live [] [] with port := [.bus [0xD5, 0x91]] }) = true ∧
      nextWith (fun t => t.panel.muxRatio == 0x1F) (step { live [] [] with port := [.bus [0xA8, 0x1F]] }) = true ∧
      nextWith (fun t => t.panel.displayOffset == 0x04) (step { live [] [] with port := [.bus [0xD3, 0x04]] }) = true ∧
      nextWith (fun t => t.panel.segRemap) (step { live [] [] with port := [.bus [0xA1]] }) = true ∧
      nextWith (fun t => t.panel.comScanReversed) (step { live [] [] with port := [.bus [0xC8]] }) = true ∧
      nextWith (fun t => t.panel.comPins == 0x02) (step { live [] [] with port := [.bus [0xDA, 0x02]] }) = true ∧
      nextWith (fun t => t.panel.contrast == 0xCF) (step { live [] [] with port := [.bus [0x81, 0xCF]] }) = true := by
  decide +kernel

/-- The settings of R78, groups 9 to 15. -/
theorem test_step_panel_settings_rest :
    nextWith (fun t => t.panel.precharge == 0xF1) (step { live [] [] with port := [.bus [0xD9, 0xF1]] }) = true ∧
      nextWith (fun t => t.panel.vcomh == 0x40) (step { live [] [] with port := [.bus [0xDB, 0x40]] }) = true ∧
      nextWith (fun t => t.panel.followRam) (step { live [] [] with port := [.bus [0xA4]] }) = true ∧
      nextWith (fun t => t.panel.normalPolarity) (step { live [] [] with port := [.bus [0xA6]] }) = true ∧
      nextWith (fun t => !t.panel.scrolling) (step { live [] [] with port := [.bus [0x2E]] }) = true ∧
      nextWith (fun t => t.panel.addrMode == 0x01) (step { live [] [] with port := [.bus [0x20, 0x01]] }) = true ∧
      nextWith (fun t => t.panel.chargePump == 0x14) (step { live [] [] with port := [.bus [0x8D, 0x14]] }) = true := by
  decide +kernel

/-- Data on the bus at the last column of the last page of the ranges: the byte is stored and the cursor wraps (R181). -/
theorem test_step_panel_data :
    nextWith (fun t => t.panel.byteAt 7 127 == some 0xA5 && t.panel.col == 0x00 && t.panel.page == 0x03 &&
        t.panel.byteAt 7 126 == none)
      (step { live [] [] with
        port := [.bus [0xA5]], channel := .data
        panel := { Panel.reset with addrMode := 0x00, col := 0x7F, page := 0x07, pageLo := 0x03 } }) = true := by
  decide +kernel

/-- `rst` over a running flush (R192). -/
theorem test_step_reset :
    nextWith (fun t => t.seq == .idle && !t.initialized && t.fb == [] && t.request == none && t.responses == [])
      (step { live [(5, 0x01)] [] with rst := true, seq := .run .updateDisplay 6, request := some (.write .data []) })
      = true := by decide +kernel

/-! ## The software layer -/

/-- V-SW1, V-SW3, V-SW4. -/
theorem test_drawLine :
    drawLine (live [] []) 0 0 3 1 .on =
        some [.setPixel 0 0 .on, .setPixel 1 0 .on, .setPixel 2 1 .on, .setPixel 3 1 .on] ∧
      drawLine (live [] []) 7 7 7 7 .off = some [.setPixel 7 7 .off] ∧
      drawLine (live [] []) 0 0 128 0 .on = none := by decide +kernel

/-- V-SW5, V-SW6. -/
theorem test_fillRect :
    nextWith (fun t => t.fb == [(1022, 0xC0), (1023, 0xC0)])
        (issueAll ((fillRect (live [] []) 126 62 2 2 .on).getD []) (live [] [])) = true ∧
      fillRect (live [] []) 127 0 2 1 .on = none := by decide +kernel

/-- V-SW9, V-SW10 (first and last characters and the length), V-SW11, E6. -/
theorem test_decimal :
    decimal 4294967295 = [0x34, 0x32, 0x39, 0x34, 0x39, 0x36, 0x37, 0x32, 0x39, 0x35] ∧
      signedDecimal (BitVec.toInt 0x80000000#32) =
        [0x2D, 0x32, 0x31, 0x34, 0x37, 0x34, 0x38, 0x33, 0x36, 0x34, 0x38] ∧
      signedDecimal 7 = [0x37] ∧ decimal 0 = [0x30] ∧ signedDecimal (-42) = [0x2D, 0x34, 0x32] := by decide +kernel

/-! ## Witnesses: for each statement with hypotheses, inputs that meet all of them, a boundary value for each clause -/

/-- A state whose operation ends, or goes on, with a property. -/
def answersWith (i : Instr) (s : State) (P : State → Bool) : Prop := ∃ t, exec i s = .next t ∧ P t = true

theorem answersWith_of {i : Instr} {s : State} {P : State → Bool} (h : nextWith P (exec i s) = true) :
    answersWith i s P := exists_of_nextWith h

theorem witness_DecodeEncodeRoundTrip :
    WellFormed (.panelSetColRange 0x00 0x7F) = true ∧ WellFormed (.panelSetPageRange 0x07 0x00) = true ∧
      WellFormed (.setPixel 0xFF 0xFF .on) = true := by decide

theorem witness_DecodeReadsOnlyEncodings :
    decode .hostCommand [0x05, 0x0A, 0x01, 0x60, 0xEE] = .instr (.setPixel 5 10 .on) [0xEE] ∧
      decode .hostResult [0xFF, 0x02] = .instr (.resultIoError 0xFF) [] ∧
      decode .transportSelector [0x40] = .instr .selData [] ∧
      decode .panelCommand [0x22, 0x07, 0x07] = .instr (.panelSetPageRange 7 7) [] := by decide

/-- The state of the first clause, and words at the edges of the others. -/
theorem witness_IllegalWordGivesInvalidArgument :
    ((fresh []).rst = false ∧ Ready (fresh []) ∧
      { fresh [] with port := [.command 0x80000000] }.port = .command 0x80000000 :: []) ∧
      BitVec.extractLsb' 28 4 0x0FFFFFFF#32 = 0 ∧ (BitVec.extractLsb' 28 4 0x80000000#32).toNat = 8 ∧
      (BitVec.extractLsb' 28 4 0x10000080#32 = 1 ∧ 0x10000080#32 &&& 0x0FFF0080 ≠ 0) ∧
      (BitVec.extractLsb' 28 4 0x60020000#32 = 6 ∧ 0x60020000#32 &&& 0x0FFE0000 ≠ 0) ∧
      (BitVec.extractLsb' 28 4 0x70000001#32 = 7 ∧ 0x70000001#32 &&& 0x0FFFFFFF ≠ 0) :=
  ⟨⟨rfl, ⟨rfl, rfl⟩, rfl⟩, by decide, by decide, by decide, by decide, by decide⟩

theorem witness_ResultWordAndStatusOutputs :
    (∀ b, Input.panelPowerCycle ≠ .rst b) ∧ ∀ b, Input.command 0x70000000 ≠ .rst b := by
  constructor <;> intro b h <;> cases h

theorem witness_ResetLeavesTheBlockZeroed : (7 < 8 ∧ 127 < 128) := by decide

/-- A running flush at page action `k` with these answers. -/
def flushing (k : Nat) (answers : List Answer) : State := { live [] answers with seq := .run .updateDisplay k }

/-- With `rst` asserted and not, at rest, waiting on a delay with and without an unfinished command, and over a write
that is outstanding. -/
theorem witness_ResetInputClearsTheBlock :
    ({ live [(5, 1)] [] with rst := true }.rst = true ∧ { live [(5, 1)] [] with rst := true }.seq = .idle) ∧
      (∃ s : State, s.rst = true ∧ s.seq = .run .updateDisplay 7 ∧ (∀ sel bytes, s.request ≠ some (.write sel bytes)) ∧
        s.panel.pending = []) ∧
      (∃ s : State, s.rst = false ∧ s.seq = .run (.init 0x3C 0) 25 ∧ s.request = some (.delay 100) ∧
        s.panel.pending = [0x22]) ∧
      (∃ s : State, s.rst = false ∧ s.seq = .run .updateDisplay 3 ∧ s.request = some (.write .cmd [0x22])) ∧
      (fresh []).rst = false ∧ AfterReset State.reset State.reset :=
  ⟨⟨rfl, rfl⟩, ⟨{ live [] [] with rst := true, seq := .run .updateDisplay 7 }, rfl, rfl, fun _ _ => nofun, rfl⟩,
    ⟨{ fresh [] with
        seq := .run (.init 0x3C 0) 25, request := some (.delay 100), panel := { Panel.reset with pending := [0x22] } },
      rfl, rfl, rfl, rfl⟩,
    ⟨{ flushing 3 [] with request := some (.write .cmd [0x22]) }, rfl, rfl, rfl⟩, rfl,
    ⟨by decide, rfl, rfl, rfl, rfl, rfl, rfl, rfl, fun _ => ⟨rfl, rfl⟩, nofun, nofun⟩⟩

theorem witness_StepRunsDecodedInstruction :
    (fresh []).rst = false ∧ (fresh []).seq = .idle ∧ (fresh []).channel = .cmd ∧ (fresh []).panel.pending = [] ∧
      decode .hostCommand (bytesOfWord32 0x70000000) = .instr .updateDisplay [] ∧
      decode .hostResult (bytesOfWord16 0x02FF) = .instr (.resultIoError 0xFF) [] ∧
      decode .transportSelector [0x40] = .instr .selData [] ∧
      decode .panelCommand [0x21, 0x00, 0x7F, 0x22] = .instr (.panelSetColRange 0x00 0x7F) [0x22] ∧
      decode .panelCommand [0x21, 0x00] = .reject .truncated ∧ decode .panelCommand [0xFF] = .reject .unknownPanelByte ∧
      { Panel.reset with pending := [0x22] }.pending ≠ [] ∧ { fresh [] with channel := .data }.channel = .data := by
  decide

theorem witness_FlushStepIsOnePageAction :
    ((flushing 0 []).rst = false ∧ (flushing 0 []).request = none ∧ (flushing 0 []).seq = .run .updateDisplay 0 ∧
      (flushing 0 []).answers = []) ∧
      ((flushing 54 [.ok]).seq = .run .updateDisplay 54 ∧ (flushing 54 [.ok]).answers = .ok :: []) ∧
      ((flushing 55 [.ok]).seq = .run .updateDisplay 55 ∧ (flushing 55 [.ok]).answers = .ok :: []) ∧
      ((flushing 55 [.err 0xFF]).seq = .run .updateDisplay 55 ∧ (flushing 55 [.err 0xFF]).answers = .err 0xFF :: []) :=
  ⟨⟨rfl, rfl, rfl, rfl⟩, ⟨rfl, rfl⟩, ⟨rfl, rfl⟩, rfl, rfl⟩

/-- A write and a delay that nobody answers, with and without reset. -/
theorem witness_UnansweredRequestHangs :
    (∃ s : State, s.seq = .run .updateDisplay 3 ∧ (∃ sel bytes, s.request = some (.write sel bytes)) ∧
      s.answers = [] ∧ s.rst = false) ∧
      (∃ s : State, s.seq = .run (.init 0x3C 0) 25 ∧ (∃ ms, s.request = some (.delay ms)) ∧ s.delaysDone = 0 ∧
        s.rst = true) ∧ ∀ b, Input.answer .ok ≠ .rst b :=
  ⟨⟨{ flushing 3 [] with request := some (.write .cmd [0x22]) }, rfl, ⟨_, _, rfl⟩, rfl, rfl⟩,
    ⟨{ State.reset with seq := .run (.init 0x3C 0) 25, request := some (.delay 100), rst := true }, rfl, ⟨_, rfl⟩,
      rfl, rfl⟩, nofun⟩

theorem witness_BusyHoldsOffTheHost :
    (flushing 3 []).seq = .run .updateDisplay 3 ∧ layerOf (.setPixel 0 0 .on) = .hostCommand ∧
      (flushing 3 []).rst = false ∧ ∃ t, step (flushing 3 []) = .next t :=
  ⟨rfl, rfl, rfl, _, rfl⟩

/-- The ways on: the next action, waiting, the end with `OK` and with an error. -/
theorem witness_SequencerNeverSkips :
    ((flushing 0 [.ok]).rst = false ∧ 0 < (actions (flushing 0 [.ok]).params .updateDisplay).length ∧
        ∃ t, step (flushing 0 [.ok]) = .next t) ∧
      (∃ t, step (flushing 0 []) = .next t) ∧
      (55 < (actions (flushing 55 [.ok]).params .updateDisplay).length ∧ ∃ t, step (flushing 55 [.ok]) = .next t) ∧
      ∃ t, step (flushing 3 [.err 0x01]) = .next t :=
  ⟨⟨rfl, by decide +kernel, _, rfl⟩, ⟨_, rfl⟩, ⟨by decide +kernel, _, rfl⟩, _, rfl⟩

/-- `INIT` at its last action and at its delay, the request outstanding or not; a burst of a flush. -/
theorem witness_StepAtARequest :
    (∃ s : State, s.rst = false ∧ s.seq = .run (.init 0x3C 0) 27 ∧
      (actions s.params (.init 0x3C 0))[27]? = some (.send 0xAF) ∧
      requestOf (.send 0xAF) s = some (.write .cmd [0xAF]) ∧ s.request = some (.write .cmd [0xAF]) ∧
      s.answers = .ok :: []) ∧
      (∃ s : State, s.rst = false ∧ s.seq = .run (.init 0x3C 0) 25 ∧
        (actions s.params (.init 0x3C 0))[25]? = some (.delay 100) ∧ requestOf (.delay 100) s = some (.delay 100) ∧
        s.request = none ∧ s.delaysDone = 0 + 1) ∧
      ((flushing 6 [.err 0x01]).seq = .run .updateDisplay 6 ∧
        (actions (flushing 6 [.err 0x01]).params .updateDisplay)[6]? = some (.burst 0) ∧
        (flushing 6 [.err 0x01]).answers = .err 0x01 :: []) :=
  ⟨⟨{ fresh [.ok] with seq := .run (.init 0x3C 0) 27, request := some (.write .cmd [0xAF]) }, rfl, rfl, rfl, rfl, rfl,
      rfl⟩,
    ⟨{ fresh [] with seq := .run (.init 0x3C 0) 25 }, rfl, rfl, rfl, rfl, rfl, rfl⟩, rfl, rfl, rfl⟩

theorem witness_BigStepIsTheStepsOfTheSequencer :
    (live [] []).rst = false ∧ Ready (live [] []) ∧ operationOf (.setPixel 127 63 .on) = some (.setPixel 127 63 .on) ∧
      argsOk (.setPixel 127 63 .on) (live [] []) = true ∧
      answersWith (.setPixel 127 63 .on) (live [] []) (ended .ok) :=
  ⟨rfl, ⟨rfl, rfl⟩, rfl, rfl, answersWith_of (by decide +kernel)⟩

theorem witness_InitRunsTheWholeBringUp :
    Ready (fresh (oks 25)) ∧ (fresh (oks 25)).pins = ⟨true, true, true⟩ ∧
      (fresh (oks 25)).answers = List.replicate ((fresh (oks 25)).params.bringup.flatten.length + 1) .ok ++ [] ∧
      (fresh (oks 25)).delaysDone = 0 + 1 ∧ (fresh (oks 25)).params = Config.params :=
  ⟨⟨rfl, rfl⟩, rfl, rfl, rfl, rfl⟩

theorem witness_InitChecksItsPins :
    Ready (fresh []) ∧ { fresh [] with pins := ⟨false, true, true⟩ }.pins.transportPresent = false ∧
      { fresh [] with pins := ⟨true, false, true⟩ }.pins.transportCanWrite = false ∧
      { fresh [] with pins := ⟨true, true, false⟩ }.pins.timingPresent = false ∧
      (fresh []).pins = ⟨true, true, true⟩ := ⟨⟨rfl, rfl⟩, rfl, rfl, rfl, rfl⟩

/-- The first and the last bring-up write, and "display on". -/
theorem witness_InitAbortsOnAFailedWrite :
    Ready (live [(258, 0x02)] [.err 0x01]) ∧ (live [(258, 0x02)] [.err 0x01]).pins = ⟨true, true, true⟩ ∧
      (live [(258, 0x02)] [.err 0x01]).answers = List.replicate 0 .ok ++ .err 0x01 :: [] ∧
      (23 < (live [] []).params.bringup.flatten.length ∧
        (live [(258, 0x02)] (oks 23 ++ [.err 0x01])).answers = List.replicate 23 .ok ++ .err 0x01 :: []) ∧
      (live [(258, 0x02)] (oks 24 ++ [.err 0x22])).answers =
        List.replicate (live [] []).params.bringup.flatten.length .ok ++ .err 0x22 :: [] ∧
      (live [(258, 0x02)] (oks 24 ++ [.err 0x22])).delaysDone = 0 + 1 :=
  ⟨⟨rfl, rfl⟩, rfl, rfl, ⟨by decide, rfl⟩, rfl, rfl⟩

theorem witness_InitIgnoresTheOldContext :
    Ready (live [] (oks 25)) ∧ (live [] (oks 25)).pins = ⟨true, true, true⟩ := ⟨⟨rfl, rfl⟩, rfl⟩

theorem witness_DeinitMarksThenSendsDisplayOff :
    (Ready (live [] [.ok]) ∧ (live [] [.ok]).tpBound = true ∧ (live [] [.ok]).tmBound = true ∧
      (live [] [.ok]).answers = .ok :: []) ∧ (live [] [.err 0x05]).answers = .err 0x05 :: [] ∧
      (fresh [.ok]).tpBound = false ∧ { live [] [.ok] with tmBound := false }.tmBound = false :=
  ⟨⟨⟨rfl, rfl⟩, rfl, rfl, rfl⟩, rfl, rfl, rfl⟩

theorem witness_PowerOnSendsDisplayOn :
    (Ready (live [] [.ok]) ∧ (live [] [.ok]).tpBound = true ∧ (live [] [.ok]).tmBound = true ∧
      (live [] [.ok]).answers = .ok :: []) ∧ (live [] [.err 0x09]).answers = .err 0x09 :: [] ∧
      (fresh [.ok]).tpBound = false ∧ { live [] [.ok] with tmBound := false }.tmBound = false :=
  ⟨⟨⟨rfl, rfl⟩, rfl, rfl, rfl⟩, rfl, rfl, rfl⟩

theorem witness_PowerOffSendsDisplayOff :
    (Ready (live [] [.ok]) ∧ (live [] [.ok]).tpBound = true ∧ (live [] [.ok]).tmBound = true ∧
      (live [] [.ok]).answers = .ok :: []) ∧ (live [] [.err 0x09]).answers = .err 0x09 :: [] ∧
      (fresh [.ok]).tpBound = false ∧ { live [] [.ok] with tmBound := false }.tmBound = false :=
  ⟨⟨⟨rfl, rfl⟩, rfl, rfl, rfl⟩, rfl, rfl, rfl⟩

/-- Unbound, and bound with every pin low. -/
theorem witness_HandleCheckReadsTheBoundBits :
    (Ready (fresh []) ∧ (fresh []).tpBound = false) ∧ Ready (live [] []) ∧ (live [] []).tpBound = true ∧
      (live [] []).tmBound = true ∧ { live [] [] with pins := ⟨false, false, false⟩ }.tpBound = true :=
  ⟨⟨⟨rfl, rfl⟩, rfl⟩, ⟨rfl, rfl⟩, rfl, rfl, rfl⟩

theorem witness_ClearZeroFillsTheBuffer :
    (Ready (live [(1023, 0xFF)] []) ∧ (live [(1023, 0xFF)] []).initialized = true) ∧
      Ready (fresh []) ∧ (fresh []).initialized = false := ⟨⟨⟨rfl, rfl⟩, rfl⟩, ⟨rfl, rfl⟩, rfl⟩

/-- The last pixel, and the first column and row off the panel. -/
theorem witness_SetPixelWritesOneByte :
    (Ready (live [] []) ∧ (live [] []).initialized = true ∧ (127#8).toNat < 128 ∧ (63#8).toNat < 64) ∧
      128 ≤ (128#8).toNat ∧ 64 ≤ (64#8).toNat ∧ (fresh []).initialized = false :=
  ⟨⟨⟨rfl, rfl⟩, rfl, by decide, by decide⟩, by decide, by decide, rfl⟩

theorem witness_SetPixelChangesOnlyItsBit :
    (127#8).toNat < 128 ∧ (63#8).toNat < 64 ∧ Ready (live [] []) ∧
      answersWith (.setPixel 127 63 .on) (live [] []) (fun t => t.lastResult == .ok) :=
  ⟨by decide, by decide, ⟨rfl, rfl⟩, answersWith_of (by decide +kernel)⟩

/-- Another pixel of the same byte, and one of another page. -/
theorem witness_OtherPixelsKeepTheirColor :
    (127#8).toNat < 128 ∧ (63#8).toNat < 64 ∧ (62#8).toNat < 64 ∧ (0#8).toNat < 64 ∧ (63#8 ≠ 62#8) ∧ (63#8 ≠ 0#8) ∧
      Ready (live [] []) ∧ answersWith (.setPixel 127 63 .on) (live [] []) (fun _ => true) :=
  ⟨by decide, by decide, by decide, by decide, by decide, by decide, ⟨rfl, rfl⟩, answersWith_of (by decide +kernel)⟩

theorem witness_LinearAddressesAreRowMajor : (7 < 8 ∧ 127 < 128) ∧ 1023 < 1024 := by decide

theorem witness_DataPlaneNeedsAnInitializedContext :
    Ready (fresh []) ∧ (fresh []).initialized = false := ⟨⟨rfl, rfl⟩, rfl⟩

theorem witness_FlushSendsEveryPage :
    Ready (live [(1023, 0x80)] (oks 56)) ∧ (live [(1023, 0x80)] (oks 56)).initialized = true ∧
      (live [(1023, 0x80)] (oks 56)).answers = List.replicate 56 .ok ++ [] := ⟨⟨rfl, rfl⟩, rfl, rfl⟩

/-- One flush that ends with each result. -/
theorem witness_FlushCountingLaw :
    Ready (live [] (oks 56)) ∧ answersWith .updateDisplay (live [] (oks 56)) (ended .ok) ∧
      answersWith .updateDisplay (live [] (oks 6 ++ [.err 0x03])) (ended (.ioError 0x03)) ∧
      answersWith .updateDisplay (fresh []) (ended .invalidArgument) :=
  ⟨⟨rfl, rfl⟩, answersWith_of (by decide +kernel), answersWith_of (by decide +kernel),
    answersWith_of (by decide +kernel)⟩

theorem witness_FlushAbortsOnTheFirstFailure :
    Ready (live [] []) ∧ (live [] []).initialized = true ∧
      (live [] [.err 0x03]).answers = List.replicate 0 .ok ++ .err 0x03 :: [] ∧
      (live [] (oks 55 ++ [.err 0x03])).answers = List.replicate 55 .ok ++ .err 0x03 :: [] :=
  ⟨⟨rfl, rfl⟩, rfl, rfl, rfl⟩

theorem witness_FlushLeavesTheBlockUnchanged :
    answersWith .updateDisplay (live [(133, 0x04)] (oks 34 ++ [.err 0x07])) (ended (.ioError 0x07)) :=
  answersWith_of (by decide +kernel)

theorem witness_InvalidArgumentChangesNothing :
    layerOf (.setPixel 128 0 .on) = .hostCommand ∧ Ready (live [] []) ∧
      answersWith (.setPixel 128 0 .on) (live [] []) (ended .invalidArgument) :=
  ⟨rfl, ⟨rfl, rfl⟩, answersWith_of (by decide +kernel)⟩

/-- V-PR3: writes 3 and 9 would both fail. -/
theorem witness_IoErrorIsTheFirstErrorOfTheTransport :
    layerOf .updateDisplay = .hostCommand ∧ Ready (live [] []) ∧
      answersWith .updateDisplay (live [] (oks 3 ++ [.err 0x01] ++ oks 5 ++ [.err 0x02])) (ended (.ioError 0x01)) :=
  ⟨rfl, ⟨rfl, rfl⟩, answersWith_of (by decide +kernel)⟩

theorem witness_OneResultForEachOperation :
    layerOf .powerOn = .hostCommand ∧ Ready (live [] []) ∧ answersWith .powerOn (live [] [.ok]) (ended .ok) ∧
      answersWith .powerOn (live [] []) (fun t => t.request.isSome && !t.seq.isIdle) :=
  ⟨rfl, ⟨rfl, rfl⟩, answersWith_of (by decide +kernel), answersWith_of (by decide +kernel)⟩

theorem witness_LifecycleTransitions :
    Ready (fresh (oks 25)) ∧ (fresh (oks 25)).initialized = false ∧
      answersWith (.init 0x3C 0) (fresh (oks 25)) (fun t => t.initialized) ∧
      (live [] []).initialized = true ∧ answersWith .deinit (live [] [.ok]) (fun t => !t.initialized) ∧
      answersWith (.init 0x3C 0) (live [] [.err 0x01]) (fun t => !t.initialized) ∧
      { live [] [] with rst := true }.rst = true ∧
      nextWith (fun t => t.initialized && t.lastResult == .ok)
        (step { fresh [.ok] with seq := .run (.init 0x3C 0) 27, request := some (.write .cmd [0xAF]) }) = true ∧
      nextWith (fun t => !t.initialized) (step { live [] [] with seq := .run .deinit 0 }) = true :=
  ⟨⟨rfl, rfl⟩, rfl, answersWith_of (by decide +kernel), rfl, answersWith_of (by decide +kernel),
    answersWith_of (by decide +kernel), rfl, by decide +kernel, by decide +kernel⟩

theorem witness_OnlyThreeOperationsWriteTheBuffer :
    answersWith .clear (live [(5, 0x01)] []) (fun t => Memory.read t.fb 5 != Memory.read (live [(5, 0x01)] []).fb 5) ∧
      nextWith (fun t => Memory.read t.fb 5 != 0x01)
        (step { live [(5, 0x01)] [] with seq := .run .clear 0 }) = true :=
  ⟨answersWith_of (by decide +kernel), by decide +kernel⟩

theorem witness_PinsMatterOnlyToInit :
    pinsOk (fresh []) = pinsOk { fresh [] with pins := ⟨true, true, true⟩ } ∧
      pinsOk { fresh [] with pins := ⟨false, true, true⟩ } = pinsOk { fresh [] with pins := ⟨true, false, false⟩ } ∧
      (flushing 3 []).rst = false ∧ (flushing 3 []).seq = .run .updateDisplay 3 := ⟨rfl, rfl, rfl, rfl⟩

theorem witness_TransactionLengths :
    (∃ t, step (flushing 0 [.ok]) = .next t) ∧ ∃ t, step (flushing 6 [.ok]) = .next t := ⟨⟨_, rfl⟩, _, rfl⟩

/-- Sound states with every kind of offer; the refused words of both ports. -/
theorem witness_SoundStatesDoNotStop :
    Machine.Inv { fresh [.err 0xFF] with port := [.command 0xFFFFFFFF, .selector 0x40, .bus [0xFF]] } ∧
      Machine.Inv { State.reset with rst := true } ∧
      step { fresh [] with port := [.result 0x0300] } = .refused (.resultNeverProduced 0x0300) ∧
      step { fresh [] with port := [.selector 0x80] } = .refused (.selectorNeverSent 0x80) :=
  ⟨by decide +kernel, by decide +kernel, rfl, rfl⟩

/-- Sound states: idle, running, waiting. -/
theorem witness_StepKeepsSoundness :
    Machine.Inv (live [(1023, 0x80)] []) ∧ (∃ t, step (live [(1023, 0x80)] []) = .next t) ∧
      Machine.Inv (flushing 55 []) ∧ (∃ t, step (flushing 55 []) = .next t) ∧
      Machine.Inv { flushing 3 [] with request := some (.write .cmd [0x22]) } :=
  ⟨by decide +kernel, ⟨_, rfl⟩, by decide +kernel, ⟨_, rfl⟩, by decide +kernel⟩

theorem witness_InputsKeepSoundness : Machine.Inv (live [(0, 0x01)] []) := by decide +kernel

theorem witness_InitializedContextHasItsHandles :
    Machine.Inv (live [] [.ok]) ∧ (live [] [.ok]).initialized = true ∧ Ready (live [] [.ok]) :=
  ⟨by decide +kernel, rfl, rfl, rfl⟩

theorem witness_PanelCommandsLeaveTheBlock :
    layerOf (.panelSetPageRange 7 7) = .panelCommand ∧ layerOf .selData = .transportSelector := ⟨rfl, rfl⟩

/-- The last column of the last page, and the first. -/
theorem witness_PanelStoresDataAtItsCursor :
    let q : Panel := { Panel.reset with addrMode := 0x00, page := 7, col := 127 }
    (q.addrMode = 0x00 ∧ q.page.toNat < 8 ∧ q.col.toNat < 128 ∧ q.col = q.colHi ∧ q.page = q.pageHi) ∧
      (127 < 128 ∧ 6 ≠ q.page.toNat) ∧
      { q with page := 0, col := 0 }.page.toNat < 8 ∧ { q with page := 0, col := 0 }.col ≠ q.colHi := by decide

theorem witness_UnfinishedCommandTakesTheNextBytes :
    (fresh []).panel.pending = [] ∧ Panel.reset.pending = [] ∧ layerOf (.panelContrast 0xAE) = .panelCommand ∧
      layerOf (.panelSetPageRange 0xAE 0xFF) = .panelCommand ∧ 1 ≤ 2 ∧ 2 < (encode (.panelSetPageRange 0xAE 0xFF)).length := by decide

theorem witness_BlockNeverNoticesThePanel :
    layerOf .updateDisplay = .hostCommand ∧ (flushing 3 []).rst = false ∧
      (flushing 3 []).seq = .run .updateDisplay 3 := ⟨rfl, rfl, rfl⟩

theorem witness_CursorSetThenBurstShowsThePage :
    7 < 8 ∧ (live [] []).panel.addrMode = 0x00 ∧ (live [] []).panel.pending = [] ∧ 127 < 128 ∧ 6 ≠ 7 := by decide

theorem witness_CompletedFlushShowsTheBuffer :
    (live [] []).params = Config.params ∧ Ready (live [(133, 0x04)] (oks 56)) ∧ (live [(133, 0x04)] (oks 56)).panel.addrMode = 0x00 ∧
      (live [(133, 0x04)] (oks 56)).panel.pending = [] ∧
      answersWith .updateDisplay (live [(133, 0x04)] (oks 56)) (ended .ok) :=
  ⟨rfl, ⟨rfl, rfl⟩, rfl, rfl, answersWith_of (by decide +kernel)⟩

/-- The first action of page 0, the last command byte of page 3 (`j` = 5), and the burst of page 7. -/
theorem witness_AbortedFlushTearsTheImage :
    (live [] []).params = Config.params ∧ Ready (live [] []) ∧ (live [] []).initialized = true ∧
      (live [] []).panel.addrMode = 0x00 ∧ (live [] []).panel.pending = [] ∧
      (live [] [.err 0x07]).answers = List.replicate (7 * 0 + 0) .ok ++ .err 0x07 :: [] ∧
      answersWith .updateDisplay (live [] [.err 0x07]) (ended (.ioError 0x07)) ∧
      (live [] (oks 26 ++ [.err 0x07])).answers = List.replicate (7 * 3 + 5) .ok ++ .err 0x07 :: [] ∧
      answersWith .updateDisplay (live [] (oks 26 ++ [.err 0x07])) (ended (.ioError 0x07)) ∧
      (live [] (oks 55 ++ [.err 0x07])).answers = List.replicate (7 * 7 + 6) .ok ++ .err 0x07 :: [] ∧
      answersWith .updateDisplay (live [] (oks 55 ++ [.err 0x07])) (ended (.ioError 0x07)) :=
  ⟨rfl, ⟨rfl, rfl⟩, rfl, rfl, rfl, rfl, answersWith_of (by decide +kernel), rfl, answersWith_of (by decide +kernel), rfl,
    answersWith_of (by decide +kernel)⟩

theorem witness_InitConfiguresThePanel :
    (fresh []).params = Config.params ∧ Ready (fresh (oks 25)) ∧ (fresh (oks 25)).panel.pending = [] ∧
      answersWith (.init 0x3C 0) (fresh (oks 25)) (ended .ok) :=
  ⟨rfl, ⟨rfl, rfl⟩, rfl, answersWith_of (by decide +kernel)⟩

theorem witness_PowerCommandsReachThePanel :
    (live [] []).params = Config.params ∧ Ready (live [] [.ok]) ∧ (live [] [.ok]).tpBound = true ∧ (live [] [.ok]).tmBound = true ∧
      (live [] [.ok]).answers = .ok :: [] ∧ (live [] [.ok]).panel.pending = [] := ⟨rfl, ⟨rfl, rfl⟩, rfl, rfl, rfl, rfl⟩

/-- A rectangle that touches both edges, and rectangles just outside. -/
theorem witness_FillRectFillsItsRectangle :
    (Ready (live [] []) ∧ (live [] []).initialized = true ∧ 126 + 2 ≤ 128 ∧ 62 + 2 ≤ 64) ∧
      (fresh []).initialized = false ∧ 128 < 127 + 2 ∧ 64 < 63 + 2 :=
  ⟨⟨⟨rfl, rfl⟩, rfl, by decide, by decide⟩, rfl, by decide, by decide⟩

/-- Each routine issues a list at a boundary of what it accepts. -/
theorem witness_SoftwareIssuesOnlySetPixel :
    (∃ ops, drawLine (live [] []) 127 63 127 63 .on = some ops) ∧
      (∃ ops, drawRectOutline (live [] []) 127 63 1 1 .on = some ops) ∧
      (∃ ops, fillRect (live [] []) 127 63 1 1 .on = some ops) ∧
      (∃ ops, drawChar (live [] []) 122 56 0x41 (some .small) .on = some ops) ∧
      (∃ ops, drawString (live [] []) 0 0 [] (some .large) .on = some ops) ∧
      (∃ ops, drawUnsigned (live [] []) 0 0 0 (some .small) .on = some ops) ∧
      ∃ ops, drawSigned (live [] []) 0 0 0xFFFFFFFF (some .small) .on = some ops :=
  ⟨⟨_, rfl⟩, ⟨_, rfl⟩, ⟨_, rfl⟩, ⟨_, rfl⟩, ⟨_, rfl⟩, ⟨_, rfl⟩, _, rfl⟩

end Sys2Proof.Tests
end

section
/-! PROOFS. What the outside can do keeps the invariant of a sound state. -/

namespace Sys2Proof.Machine

open Sys2Proof

/-- The selector bytes of the two channels are the two a transport reads (30_encoding.md R73). -/
theorem decodeSelector_byte_isSome (sel : Selector) : (decodeSelector sel.byte).isSome = true := by
  cases sel <;> rfl

/-- The invariant speaks of the port only through what may stand offered there. -/
theorem inv_setPort {s : State} {p : List Offer} (h : Inv s) (hp : p.all Offer.fromOutside = true) :
    Inv (setPort p s) := by
  obtain ⟨hfb, hpanel, hctx, hseq, htrace, -, hans, hres, hrst, hparams⟩ := h
  exact ⟨hfb, hpanel, hctx, hseq, htrace, hp, hans, hres, hrst, hparams⟩

/-- The invariant speaks of the panel only through the panel's own invariant. -/
theorem inv_setPanel {s : State} {q : Panel} (h : Inv s) (hq : q.wf = true) : Inv (setPanel q s) := by
  obtain ⟨hfb, -, hctx, hseq, htrace, hport, hans, hres, hrst, hparams⟩ := h
  exact ⟨hfb, hq, hctx, hseq, htrace, hport, hans, hres, hrst, hparams⟩

/-- An offer from outside keeps the invariant. -/
theorem inv_offer {s : State} {o : Offer} (h : Inv s) (ho : o.fromOutside = true) : Inv (offer o s) := by
  have ⟨_, _, _, _, _, hport, _⟩ := h
  exact inv_setPort h (by simp [hport, ho])

/-- An answer of the transport is a legal one, so it keeps the invariant (00_scope.md R8). -/
theorem inv_giveAnswer {s : State} (a : Answer) (h : Inv s) : Inv (giveAnswer a s) := by
  unfold giveAnswer
  split
  · next ha =>
    obtain ⟨hfb, hpanel, hctx, hseq, htrace, hport, hans, hres, hrst, hparams⟩ := h
    exact ⟨hfb, hpanel, hctx, hseq, htrace, hport, by simp [hans, ha], hres, hrst, hparams⟩
  · exact h

/-- A reset gives every piece of the block its reset value (10_state.md R34). -/
theorem applyReset_blockReset (s : State) : BlockReset (applyReset s) := by
  simp [BlockReset]

/-- A reset, with `rst` at either level after it, keeps the invariant (70_reset_and_hazards.md R190). -/
theorem inv_applyReset {s : State} (b : Bool) (h : Inv s) : Inv { applyReset s with rst := b } := by
  obtain ⟨-, hpanel, -, -, htrace, hport, hans, -, -, hparams⟩ := h
  refine ⟨by simp, ?_, by simp, by simp [seqOk], by simpa using htrace, by simpa using hport, by simpa using hans,
    by simp [Result.legal], fun _ => applyReset_blockReset s, by simpa using hparams⟩
  exact abandon_panel_wf hpanel

/-- Either level of `rst` keeps the invariant. -/
theorem inv_setRst {s : State} (b : Bool) (h : Inv s) : Inv (setRst b s) := by
  unfold setRst
  split
  · exact inv_applyReset b h
  · exact h

/-- Settles O44, event by event: an offer puts on the port what the outside may put there, an answer is legal, a
delay's completion and the pins are in no clause of the invariant, `rst` resets the block or changes nothing, and a
power cycle leaves the panel well-formed. -/
theorem inputsKeepSoundness : Obligations.InputsKeepSoundness := by
  intro s e h
  cases e with
  | command w => exact inv_offer h rfl
  | select sel => exact inv_offer h (decodeSelector_byte_isSome sel)
  | bus bytes => exact inv_offer h rfl
  | answer a => exact inv_giveAnswer a h
  | delayDone => exact h
  | pins p => exact h
  | rst b => exact inv_setRst b h
  | panelPowerCycle => exact inv_setPanel h s.panel.powerCycle_wf

end Sys2Proof.Machine
end

section
/-! PROOFS. One step of the sequencer: what it leaves of the inputs, where it goes, and what it does to the buffer. -/

namespace Sys2Proof.Machine

open Sys2Proof

/-! ## Inputs and parameters stay -/

/-- Taking an answer leaves the inputs that are no answer, and the parameters. -/
theorem settle_sameInputs (op : Operation) (k : Nat) (r : Request) (s : State) : SameInputs s (settle op k r s) := by
  rcases settle_cases op k r s with ⟨h, -⟩ | ⟨_, _, _, -, -, h⟩ | ⟨_, _, _, _, -, -, h⟩ | ⟨_, _, -, -, h⟩ <;> rw [h]
  · exact ⟨rfl, rfl, rfl, rfl⟩
  · simp [SameInputs]
  · simp [SameInputs]
  · simp [SameInputs]

/-- A step of the sequencer leaves the parameters, the pins, the reset input and what stands offered. -/
theorem seqStep_sameInputs {s t : State} (h : seqStep s = .next t) : SameInputs s t := by
  rcases seqStep_cases h with ⟨-, rfl⟩ | ⟨op, k, r, -, -, rfl⟩ | ⟨op, k, a, -, -, -, ha⟩
  · exact ⟨rfl, rfl, rfl, rfl⟩
  · exact settle_sameInputs op k r s
  · rcases startAction_cases ha with ⟨_, _, -, rfl⟩ | ⟨-, rfl⟩ | ⟨-, rfl⟩ | ⟨_, _, _, _, -, -, -, rfl⟩ | ⟨r, -, rfl⟩
    · simp [SameInputs]
    · simp [SameInputs]
    · simp [SameInputs]
    · simp [SameInputs]
    · exact settle_sameInputs op k r (issue r s)

theorem seqStep_params {s t : State} (h : seqStep s = .next t) : t.params = s.params := (seqStep_sameInputs h).1

theorem seqStep_rst {s t : State} (h : seqStep s = .next t) : t.rst = s.rst := by
  obtain ⟨-, -, hrst, -⟩ := seqStep_sameInputs h
  exact hrst

/-! ## Where the sequencer goes -/

/-- The ways on from action `k` (10_state.md R27), with the answers that stood by: to the next action of the list, or
waiting at this one, or ended, at the last action with `OK` and else with the error the transport answered. -/
def Progress (op : Operation) (k : Nat) (answers : List Answer) (t : State) : Prop :=
  (t.seq = .run op (k + 1) ∧ k + 1 < (actions t.params op).length ∧ t.request = none) ∨
  (t.seq = .run op k ∧ t.request ≠ none) ∨
  (t.seq = .idle ∧ (((actions t.params op).length ≤ k + 1 ∧ t.lastResult = .ok) ∨
    ∃ e rest, answers = .err e :: rest ∧ t.lastResult = .ioError e))

theorem completeAction_progress (op : Operation) (k : Nat) (answers : List Answer) {s : State}
    (hr : s.request = none) : Progress op k answers (completeAction op k s) := by
  rcases Nat.lt_or_ge (k + 1) (actions s.params op).length with hk | hk
  · rw [completeAction_more s hk]
    exact .inl ⟨rfl, hk, hr⟩
  · rw [completeAction_last s hk]
    exact .inr (.inr ⟨rfl, .inl ⟨by simpa using hk, rfl⟩⟩)

theorem settle_progress {op : Operation} {k : Nat} {r : Request} {s : State} (hq : s.seq = .run op k)
    (hr : s.request = some r) : Progress op k s.answers (settle op k r s) := by
  rcases settle_cases op k r s with
    ⟨h, -⟩ | ⟨_, _, _, -, -, h⟩ | ⟨_, _, e, rest, -, hans, h⟩ | ⟨_, _, -, -, h⟩ <;> rw [h]
  · exact .inr (.inl ⟨hq, by simp [hr]⟩)
  · exact completeAction_progress op k _ rfl
  · exact .inr (.inr ⟨rfl, .inr ⟨e, rest, hans, rfl⟩⟩)
  · exact completeAction_progress op k _ rfl

/-- A step of the sequencer makes one of the three ways on. -/
theorem seqStep_progress {s t : State} {op : Operation} {k : Nat} (hq : s.seq = .run op k)
    (h : seqStep s = .next t) : Progress op k s.answers t := by
  rcases seqStep_cases h with ⟨hi, -⟩ | ⟨op', k', r, hq', hr, rfl⟩ | ⟨op', k', a, hq', hr, -, ha⟩
  · simp [hq] at hi
  · cases hq.symm.trans hq'
    exact settle_progress hq hr
  · cases hq.symm.trans hq'
    rcases startAction_cases ha with ⟨_, _, -, rfl⟩ | ⟨-, rfl⟩ | ⟨-, rfl⟩ | ⟨_, _, _, _, -, -, -, rfl⟩ | ⟨r, -, rfl⟩
    · exact completeAction_progress op k _ hr
    · exact completeAction_progress op k _ hr
    · exact completeAction_progress op k _ hr
    · exact completeAction_progress op k _ hr
    · exact settle_progress (s := issue r s) hq rfl

/-- Settles O12: the three ways on of `seqStep_progress`, at an action of the list. -/
theorem sequencerNeverSkips : Obligations.SequencerNeverSkips := by
  intro s t op k hrst hq hk h
  rw [step_run hrst hq] at h
  have hp := seqStep_progress hq h
  rw [Progress, seqStep_params h] at hp
  rcases hp with hnext | hwait | ⟨hidle, ⟨hlast, hok⟩ | herr⟩
  · exact .inl hnext
  · exact .inr (.inl hwait)
  · exact .inr (.inr ⟨hidle, .inl ⟨by omega, hok⟩⟩)
  · exact .inr (.inr ⟨hidle, .inr herr⟩)

/-! ## The buffer -/

@[simp] theorem settle_fb (op : Operation) (k : Nat) (r : Request) (s : State) : (settle op k r s).fb = s.fb := by
  rcases settle_cases op k r s with ⟨h, -⟩ | ⟨_, _, _, -, -, h⟩ | ⟨_, _, _, _, -, -, h⟩ | ⟨_, _, -, -, h⟩ <;> simp [h]

/-- A step of the sequencer leaves the buffer, but where it begins a zero-fill or a pixel write. -/
theorem seqStep_fb {s t : State} (h : seqStep s = .next t) :
    t.fb = s.fb ∨ ∃ op k, s.seq = .run op k ∧
      ((actions s.params op)[k]? = some .zeroFill ∨ ∃ x y c, (actions s.params op)[k]? = some (.plot x y c)) := by
  rcases seqStep_cases h with ⟨-, rfl⟩ | ⟨op, k, r, -, -, rfl⟩ | ⟨op, k, a, hq, -, hact, ha⟩
  · exact .inl rfl
  · exact .inl (settle_fb op k r s)
  · rcases startAction_cases ha with
      ⟨_, _, -, rfl⟩ | ⟨-, rfl⟩ | ⟨rfl, -⟩ | ⟨x, y, c, _, rfl, -, -, -⟩ | ⟨r, -, rfl⟩
    · exact .inl (by simp)
    · exact .inl (by simp)
    · exact .inr ⟨op, k, hq, .inl hact⟩
    · exact .inr ⟨op, k, hq, .inr ⟨x, y, c, hact⟩⟩
    · exact .inl (by simp)

end Sys2Proof.Machine
end

section
/-! PROOFS. Every step keeps the invariant of a sound state, and the parameters. -/

namespace Sys2Proof.Machine

open Sys2Proof

/-! ## The invariant, the sequencer apart -/

/-- The clauses of the invariant that do not read the sequencer, in a state without reset: of every update but those of
the sequencer's position and request they alone are to be shown. -/
structure SoundData (s : State) : Prop where
  fb : Memory.wf s.fb = true
  panel : Panel.wf s.panel = true
  handles : s.initialized = true → s.tpBound = true ∧ s.tmBound = true
  trace : s.trace.all Event.lengthOk = true
  port : s.port.all Offer.fromOutside = true
  answers : s.answers.all Answer.legal = true
  lastResult : s.lastResult.legal = true
  params : s.params.wf = true
  rst : s.rst = false

theorem SoundData.inv {s : State} (h : SoundData s) (hq : seqOk s = true) : Inv s :=
  ⟨h.fb, h.panel, h.handles, hq, h.trace, h.port, h.answers, h.lastResult, fun hr => by simp [h.rst] at hr, h.params⟩

theorem Inv.soundData {s : State} (h : Inv s) (hr : s.rst = false) : SoundData s := by
  obtain ⟨hfb, hpanel, hctx, -, htrace, hport, hans, hres, -, hparams⟩ := h
  exact ⟨hfb, hpanel, hctx, htrace, hport, hans, hres, hparams, hr⟩

theorem Inv.seq_ok {s : State} (h : Inv s) : seqOk s = true := by
  obtain ⟨-, -, -, hseq, -⟩ := h
  exact hseq

/-- In a sound state an operation runs only without reset (70_reset_and_hazards.md R190). -/
theorem Inv.rst_of_run {s : State} {op : Operation} {k : Nat} (h : Inv s) (hq : s.seq = .run op k) :
    s.rst = false := by
  obtain ⟨-, -, -, -, -, -, -, -, hrst, -⟩ := h
  by_contra hr
  obtain ⟨-, -, -, -, -, -, hidle, -⟩ := hrst (by simpa using hr)
  simp [hq] at hidle

section
variable {s : State} (h : SoundData s)
include h

theorem SoundData.after_setSeq (q : Seq) : SoundData (setSeq q s) := { h with }

theorem SoundData.after_setFb {m : Memory} (hm : m.wf = true) : SoundData (setFb m s) := { h with fb := hm }

theorem SoundData.after_bindContext (a : BusAddr) (hd : BusHandle) : SoundData (bindContext a hd s) :=
  { h with handles := fun _ => ⟨rfl, rfl⟩ }

theorem SoundData.after_unmark : SoundData (setInitialized false s) := { h with handles := by simp }

theorem SoundData.after_markDone {op : Operation} (hb : op.isInit = true → s.tpBound = true ∧ s.tmBound = true) :
    SoundData (markDone op s) := by
  cases op with
  | init a hd => exact { h with handles := fun _ => hb rfl }
  | deinit => exact h
  | powerOn => exact h
  | powerOff => exact h
  | clear => exact h
  | setPixel x y c => exact h
  | updateDisplay => exact h

theorem SoundData.after_finish {r : Result} (hr : r.legal = true) : SoundData (finish r s) :=
  { h with lastResult := hr }

theorem SoundData.after_issue {r : Request} (hr : (eventOf r s).lengthOk = true) : SoundData (issue r s) :=
  { h with trace := by simp [h.trace, hr] }

theorem SoundData.after_takeAnswer {a : Answer} {rest : List Answer} (ha : s.answers = a :: rest) :
    SoundData (takeAnswer rest s) := by
  have hans := h.answers
  rw [ha, List.all_cons, Bool.and_eq_true] at hans
  exact { h with answers := hans.2 }

theorem SoundData.after_takeDelay (n : Nat) : SoundData (takeDelay n s) := { h with }

theorem SoundData.after_deliver (sel : Selector) (bytes : List Byte) : SoundData (deliver sel bytes s) :=
  { h with panel := Panel.take_wf sel bytes h.panel }

theorem SoundData.after_tear (sel : Selector) (bytes : List Byte) : SoundData (tear sel bytes s) :=
  { h with panel := Panel.torn_wf sel bytes h.panel }

/-- The error a write is answered with is of `IoErr` (00_scope.md R8). -/
theorem SoundData.ioError_legal {e : IoErr} {rest : List Answer} (ha : s.answers = .err e :: rest) :
    (Result.ioError e).legal = true := by
  have hans := h.answers
  rw [ha, List.all_cons, Bool.and_eq_true] at hans
  exact hans.1

end

/-! ## The sequencer's clause -/

theorem seqOk_idle_iff {s : State} (hq : s.seq = .idle) : seqOk s = true ↔ s.request = none := by
  simp [seqOk, hq]

theorem seqOk_run_iff {s : State} {op : Operation} {k : Nat} (hq : s.seq = .run op k) :
    seqOk s = true ↔ startedOk op k s = true ∧
      ∃ a, (actions s.params op)[k]? = some a ∧ (s.request = none ∨ s.request = requestOf a s) := by
  cases ha : (actions s.params op)[k]? <;> simp [seqOk, hq, ha]

/-- What an operation has established is read from the context registers alone. -/
theorem startedOk_of_sameContext {op : Operation} {k : Nat} {s t : State} (h : SameContext s t)
    (hst : startedOk op k s = true) : startedOk op k t = true := by
  obtain ⟨hi, ha, hh, htp, htm⟩ := h
  cases op <;> simpa [startedOk, hi, ha, hh, htp, htm] using hst

/-- What has been established at an action stays so after it, but for the first action of `INIT` and `DEINIT`. -/
theorem startedOk_succ {op : Operation} {k : Nat} {s : State} (h : startedOk op k s = true)
    (hk : op.isInit = true ∨ op = .deinit → 0 < k) : startedOk op (k + 1) s = true := by
  cases op with
  | init a hd =>
    have := hk (.inl rfl)
    simpa [startedOk, Nat.ne_of_gt this] using h
  | deinit =>
    have := hk (.inr rfl)
    simpa [startedOk, Nat.ne_of_gt this] using h
  | powerOn => exact h
  | powerOff => exact h
  | clear => exact h
  | setPixel x y c => exact h
  | updateDisplay => exact h

/-- An operation whose checks pass has established what its first action needs (R163). -/
theorem startedOk_zero {op : Operation} {s : State} (h : argsOk op s = true) : startedOk op 0 s = true := by
  cases op with
  | init a hd => rfl
  | deinit => simpa [startedOk, argsOk, handlesOk] using h
  | powerOn => exact h
  | powerOff => exact h
  | clear => exact h
  | setPixel x y c => exact h
  | updateDisplay => exact h

/-- `INIT` past its first action has bound both handles (R91). -/
theorem handles_of_startedOk_init {op : Operation} {k : Nat} {s : State} (h : startedOk op (k + 1) s = true)
    (hop : op.isInit = true) : s.tpBound = true ∧ s.tmBound = true := by
  cases op <;> simp_all [startedOk, Operation.isInit]

/-- An action that is a request is not the first of `INIT` or `DEINIT`. -/
theorem pos_of_requestOf {p : Config.Params} {op : Operation} {k : Nat} {a : Action} {r : Request} {s : State}
    (ha : (actions p op)[k]? = some a) (hr : requestOf a s = some r) : op.isInit = true ∨ op = .deinit → 0 < k := by
  rcases action_cases ha with ⟨_, _, rfl, -⟩ | ⟨rfl, -⟩ | ⟨_, _, _, rfl, -⟩ | ⟨rfl, -⟩ | ⟨-, hk⟩
  · cases hr
  · cases hr
  · cases hr
  · cases hr
  · exact hk

/-- A zero-fill or a pixel write is not the first action of `INIT` or `DEINIT`. -/
theorem pos_of_buffer_action {p : Config.Params} {op : Operation} {k : Nat} {a : Action}
    (ha : (actions p op)[k]? = some a) (hb : a = .zeroFill ∨ ∃ x y c, a = .plot x y c) :
    op.isInit = true ∨ op = .deinit → 0 < k := by
  intro hop
  rcases hb with rfl | ⟨x, y, c, rfl⟩
  · have hc : op = .clear ∧ k = 0 ∨ op.isInit = true ∧ 0 < k := by simpa using action_cases ha
    rcases hc with ⟨rfl, -⟩ | ⟨-, hk⟩
    · rcases hop with hop | hop <;> cases hop
    · exact hk
  · have hc : op = .setPixel x y c ∧ k = 0 := by simpa using action_cases ha
    obtain ⟨rfl, -⟩ := hc
    rcases hop with hop | hop <;> cases hop

/-- An action's transaction is of a legal length (30_encoding.md R74). -/
theorem lengthOk_of_requestOf {a : Action} {r : Request} {s : State} (h : requestOf a s = some r) :
    (eventOf r s).lengthOk = true := by
  cases a <;> cases h <;> simp [eventOf, Event.lengthOk]

/-! ## One step of the sequencer -/

/-- Ending an operation keeps the invariant. -/
theorem SoundData.inv_finish {r : Result} {s : State} (h : SoundData s) (hr : r.legal = true) : Inv (finish r s) :=
  (h.after_finish hr).inv ((seqOk_idle_iff rfl).2 rfl)

/-- Completing an action keeps the invariant. -/
theorem SoundData.inv_completeAction {op : Operation} {k : Nat} {s : State} (h : SoundData s)
    (hr : s.request = none) (hst : startedOk op (k + 1) s = true) : Inv (completeAction op k s) := by
  rcases Nat.lt_or_ge (k + 1) (actions s.params op).length with hk | hk
  · rw [completeAction_more s hk]
    exact (h.after_setSeq _).inv ((seqOk_run_iff rfl).2
      ⟨startedOk_of_sameContext ⟨rfl, rfl, rfl, rfl, rfl⟩ hst, _, List.getElem?_eq_getElem hk, .inl hr⟩)
  · rw [completeAction_last s hk]
    exact (h.after_markDone fun hop => handles_of_startedOk_init hst hop).inv_finish rfl

/-- Taking the answer to an action's request keeps the invariant. -/
theorem inv_settle {op : Operation} {k : Nat} {r : Request} {s : State} (h : Inv s) (hq : s.seq = .run op k)
    (hr : s.request = some r) : Inv (settle op k r s) := by
  have hd := h.soundData (h.rst_of_run hq)
  obtain ⟨hst, a, ha, hreq⟩ := (seqOk_run_iff hq).1 h.seq_ok
  have hreq' : requestOf a s = some r := by simpa [hr, eq_comm] using hreq
  have hst' : startedOk op (k + 1) s = true := startedOk_succ hst (pos_of_requestOf ha hreq')
  rcases settle_cases op k r s with
    ⟨h', -⟩ | ⟨sel, bytes, rest, -, hans, h'⟩ | ⟨sel, bytes, e, rest, -, hans, h'⟩ | ⟨_, n, -, -, h'⟩ <;> rw [h']
  · exact h
  · exact ((hd.after_takeAnswer hans).after_deliver sel bytes).inv_completeAction rfl
      (startedOk_of_sameContext ⟨rfl, rfl, rfl, rfl, rfl⟩ hst')
  · exact ((hd.after_takeAnswer hans).after_tear sel bytes).inv_finish (hd.ioError_legal hans)
  · exact (hd.after_takeDelay n).inv_completeAction rfl (startedOk_of_sameContext ⟨rfl, rfl, rfl, rfl, rfl⟩ hst')

/-- Issuing an action's request keeps the invariant. -/
theorem inv_issue {op : Operation} {k : Nat} {a : Action} {r : Request} {s : State} (h : Inv s)
    (hq : s.seq = .run op k) (ha : (actions s.params op)[k]? = some a) (hr : requestOf a s = some r) :
    Inv (issue r s) := by
  obtain ⟨hst, -⟩ := (seqOk_run_iff hq).1 h.seq_ok
  have hreq : requestOf a (issue r s) = some r := by rw [← hr]; cases a <;> rfl
  exact ((h.soundData (h.rst_of_run hq)).after_issue (lengthOk_of_requestOf hr)).inv
    ((seqOk_run_iff (s := issue r s) hq).2
      ⟨startedOk_of_sameContext ⟨rfl, rfl, rfl, rfl, rfl⟩ hst, a, ha, .inr hreq.symm⟩)

/-- Beginning an action keeps the invariant. -/
theorem inv_startAction {op : Operation} {k : Nat} {a : Action} {s t : State} (h : Inv s) (hq : s.seq = .run op k)
    (hr : s.request = none) (ha : (actions s.params op)[k]? = some a) (ht : startAction op k a s = .next t) :
    Inv t := by
  have hd := h.soundData (h.rst_of_run hq)
  obtain ⟨hst, -⟩ := (seqOk_run_iff hq).1 h.seq_ok
  rcases startAction_cases ht with
    ⟨addr, hdl, rfl, rfl⟩ | ⟨rfl, rfl⟩ | ⟨rfl, rfl⟩ | ⟨x, y, c, v, rfl, hp, hc, rfl⟩ | ⟨r, hreq, rfl⟩
  · obtain ⟨rfl, rfl⟩ : op = .init addr hdl ∧ k = 0 := by simpa using action_cases ha
    exact (hd.after_bindContext addr hdl).inv_completeAction hr (by simp [startedOk])
  · obtain ⟨rfl, rfl⟩ : op = .deinit ∧ k = 0 := by simpa using action_cases ha
    exact hd.after_unmark.inv_completeAction hr (by simpa [startedOk] using hst)
  · exact (hd.after_setFb Memory.wf_nil).inv_completeAction hr
      (startedOk_of_sameContext ⟨rfl, rfl, rfl, rfl, rfl⟩ (startedOk_succ hst (pos_of_buffer_action ha (.inl rfl))))
  · exact (hd.after_setFb (Memory.wf_write v (linear_lt hp hc) hd.fb)).inv_completeAction hr
      (startedOk_of_sameContext ⟨rfl, rfl, rfl, rfl, rfl⟩
        (startedOk_succ hst (pos_of_buffer_action ha (.inr ⟨x, y, c, rfl⟩))))
  · exact inv_settle (inv_issue h hq ha hreq) hq rfl

/-- A step of the sequencer keeps the invariant. -/
theorem inv_seqStep {s t : State} (h : Inv s) (ht : seqStep s = .next t) : Inv t := by
  rcases seqStep_cases ht with ⟨-, rfl⟩ | ⟨op, k, r, hq, hr, rfl⟩ | ⟨op, k, a, hq, hr, ha, hstart⟩
  · exact h
  · exact inv_settle h hq hr
  · exact inv_startAction h hq hr ha hstart

/-! ## Instructions and what is offered -/

/-- Accepting an operation keeps the invariant, without reset (40_context_bringup.md R90). -/
theorem inv_accept {s : State} (op : Operation) (h : Inv s) (hrst : s.rst = false) (hq : s.seq = .idle) :
    Inv (accept op s) := by
  have hd := h.soundData hrst
  unfold accept
  split
  · next hargs =>
    exact (hd.after_setSeq _).inv ((seqOk_run_iff rfl).2
      ⟨startedOk_of_sameContext ⟨rfl, rfl, rfl, rfl, rfl⟩ (startedOk_zero hargs), _,
        List.getElem?_eq_getElem (actions_length_pos s.params op), .inl ((seqOk_idle_iff hq).1 h.seq_ok)⟩)
  · exact hd.inv_finish rfl

/-- Every instruction but a result word, which nothing outside can offer (10_state.md R29), keeps the invariant. -/
theorem inv_exec {s t : State} {i : Instr} (h : Inv s) (hrst : s.rst = false) (hi : layerOf i ≠ .hostResult)
    (ht : exec i s = .next t) : Inv t := by
  cases hl : layerOf i with
  | hostCommand =>
    obtain ⟨op, hop⟩ := Option.isSome_iff_exists.mp ((operationOf_isSome_iff i).2 hl)
    rw [exec_host hop] at ht
    exact runOperation_keeps (P := Inv) (fun _ _ => inv_seqStep) ht (inv_accept op h hrst) h
  | hostResult => exact absurd hl hi
  | transportSelector =>
    obtain ⟨sel, hsel⟩ := exec_selector hl s
    cases hsel.symm.trans ht
    exact h
  | panelCommand =>
    cases (exec_panel hl s).symm.trans ht
    exact inv_setPanel h (Panel.effect_wf i (h.soundData hrst).panel)

theorem decodeCommand_layer {w : Word32} {i : Instr} (h : decodeCommand w = some i) : layerOf i = .hostCommand := by
  unfold decodeCommand at h
  split_ifs at h <;> cases h <;> rfl

theorem decodeSelector_layer {b : Byte} {i : Instr} (h : decodeSelector b = some i) :
    layerOf i = .transportSelector := by
  unfold decodeSelector at h
  split_ifs at h <;> cases h <;> rfl

/-- Whether what a decoder reads is a panel command, where it reads an instruction. -/
def readsPanelCommand (d : Decoded) : Bool :=
  match d with
  | .instr i _ => layerOf i == .panelCommand
  | .reject _ => true

theorem readsPanelCommand_ite {c : Prop} [Decidable c] {d e : Decoded} (hd : readsPanelCommand d = true)
    (he : readsPanelCommand e = true) : readsPanelCommand (if c then d else e) = true := by
  split
  · exact hd
  · exact he

theorem readsPanelCommand_decodePanelOp (op : Byte) (rest : List Byte) :
    readsPanelCommand (decodePanelOp op rest) = true := by
  unfold decodePanelOp
  rcases rest with _ | ⟨v, _ | ⟨w, more⟩⟩
  all_goals
    repeat' apply readsPanelCommand_ite
    all_goals rfl

theorem decodePanel_layer {bs rest : List Byte} {i : Instr} (h : decodePanel bs = .instr i rest) :
    layerOf i = .panelCommand := by
  cases bs with
  | nil => cases h
  | cons op more =>
    have ho := readsPanelCommand_decodePanelOp op more
    rw [show decodePanelOp op more = .instr i rest from h] at ho
    simpa [readsPanelCommand] using ho

theorem remaining_fromOutside (bytes : List Byte) {rest : List Offer} (h : rest.all Offer.fromOutside = true) :
    (remaining bytes rest).all Offer.fromOutside = true := by
  cases bytes with
  | nil => exact h
  | cons b more => exact h

/-- Taking bytes on the bus keeps the invariant: they are a panel command, or a byte the panel takes. -/
theorem inv_stepIdle_bus {s t : State} {b : Byte} {more : List Byte} {rest : List Offer} (h : Inv s)
    (hrst : s.rst = false) (hrest : rest.all Offer.fromOutside = true) (hp : s.port = .bus (b :: more) :: rest)
    (ht : stepIdle s = .next t) : Inv t := by
  have hpanel := (h.soundData hrst).panel
  have hmore := inv_setPort h (remaining_fromOutside more hrest)
  have hfeed : feedCommand b more rest s = fetch s → Inv t := by
    intro hf
    rw [stepIdle, ← hf] at ht
    cases ht
    exact inv_setPanel hmore (Panel.cmdByte_wf b hpanel)
  cases hc : s.channel with
  | data =>
    simp only [stepIdle, fetch, hp, fetchBus, hc] at ht
    cases ht
    exact inv_setPanel hmore (Panel.dataByte_wf b hpanel)
  | cmd =>
    cases hpend : s.panel.pending with
    | cons _ _ => exact hfeed (by simp only [fetch, hp, fetchBus, hc, hpend])
    | nil =>
      cases hd : decodePanel (b :: more) with
      | reject why => exact hfeed (by simp only [fetch, hp, fetchBus, hc, hpend, hd])
      | instr i after =>
        have hf : fetch s = .instr i (setPort (remaining after rest) s) := by
          simp only [fetch, hp, fetchBus, hc, hpend, hd]
        exact inv_exec (inv_setPort h (remaining_fromOutside after hrest)) hrst (by simp [decodePanel_layer hd])
          ((stepIdle_instr hf).symm.trans ht)

/-- Taking what is offered keeps the invariant. -/
theorem inv_stepIdle {s t : State} (h : Inv s) (hrst : s.rst = false) (ht : stepIdle s = .next t) : Inv t := by
  have hport := (h.soundData hrst).port
  rcases hp : s.port with _ | ⟨o, rest⟩
  · simp only [stepIdle, fetch, hp] at ht
    cases ht
    exact h
  rw [hp, List.all_cons, Bool.and_eq_true] at hport
  obtain ⟨ho, hrest⟩ := hport
  have hs := inv_setPort h hrest
  cases o with
  | command w =>
    cases hd : decodeCommand w with
    | none =>
      simp only [stepIdle, fetch, hp, hd, instrOr] at ht
      cases ht
      exact (hs.soundData hrst).inv_finish rfl
    | some i =>
      simp only [stepIdle, fetch, hp, hd, instrOr] at ht
      exact inv_exec hs hrst (by simp [decodeCommand_layer hd]) ht
  | result w => cases ho
  | selector b =>
    obtain ⟨i, hd⟩ := Option.isSome_iff_exists.mp ho
    simp only [stepIdle, fetch, hp, hd, instrOr] at ht
    exact inv_exec hs hrst (by simp [decodeSelector_layer hd]) ht
  | bus bytes =>
    cases bytes with
    | nil =>
      simp only [stepIdle, fetch, hp] at ht
      cases ht
      exact hs
    | cons b more => exact inv_stepIdle_bus h hrst hrest hp ht

/-- A step keeps the invariant. -/
theorem inv_step {s t : State} (h : Inv s) (ht : step s = .next t) : Inv t := by
  cases hrst : s.rst with
  | true =>
    rw [step_rst hrst] at ht
    cases ht
    exact inv_applyReset (applyReset s).rst h
  | false =>
    cases hq : s.seq with
    | idle => exact inv_stepIdle h hrst ((step_idle hrst hq).symm.trans ht)
    | run op k => exact inv_seqStep h ((step_run hrst hq).symm.trans ht)

/-! ## The parameters -/

/-- No instruction changes the parameters. -/
theorem exec_params {s t : State} {i : Instr} (ht : exec i s = .next t) : t.params = s.params := by
  cases hl : layerOf i with
  | hostCommand =>
    obtain ⟨op, hop⟩ := Option.isSome_iff_exists.mp ((operationOf_isSome_iff i).2 hl)
    rw [exec_host hop] at ht
    refine runOperation_keeps (P := fun u => u.params = s.params)
      (fun u v hu hv => (seqStep_params hv).trans hu) ht (fun _ => ?_) rfl
    unfold accept
    split <;> simp
  | hostResult =>
    obtain ⟨r, hr⟩ := exec_result hl s
    cases hr.symm.trans ht
    rfl
  | transportSelector =>
    obtain ⟨sel, hsel⟩ := exec_selector hl s
    cases hsel.symm.trans ht
    rfl
  | panelCommand =>
    cases (exec_panel hl s).symm.trans ht
    rfl

/-- No step changes the parameters (00_scope.md R8; log 32). -/
theorem step_params {s t : State} (ht : step s = .next t) : t.params = s.params := by
  rcases step_cases ht with ⟨-, rfl⟩ | ⟨-, -, hseq⟩ |
    ⟨-, -, rfl | ⟨i, p, -, hx⟩ | ⟨p, rfl⟩ | ⟨p, rfl⟩ | ⟨b, p, rfl⟩ | ⟨b, p, rfl⟩⟩
  · exact applyReset_params s
  · exact seqStep_params hseq
  · rfl
  · exact exec_params (s := setPort p s) hx
  · rfl
  · rfl
  · rfl
  · rfl

/-- Settles O43: `inv_step` and `step_params`. -/
theorem stepKeepsSoundness : Obligations.StepKeepsSoundness :=
  fun _ _ h ht => ⟨inv_step h ht, step_params ht⟩

end Sys2Proof.Machine
end

section
/-! PROOFS. One step at a request, the big step of an operation, and what a running operation writes. -/

namespace Sys2Proof.Machine

open Sys2Proof

/-! ## A step at a request -/

/-- The state that waits on a request, with this trace. -/
def waitingOn (r : Request) (T : List Event) (s : State) : State := { s with trace := T, request := some r }

/-- An action's step at its request, issued by this step or an earlier one, is the taking of its answer (R27, R47). -/
theorem step_at_request {s : State} {op : Operation} {k : Nat} {a : Action} {r : Request} {T : List Event}
    (hrst : s.rst = false) (hq : s.seq = .run op k) (ha : (actions s.params op)[k]? = some a)
    (hreq : requestOf a s = some r)
    (hT : (s.request = none ∧ T = s.trace ++ [eventOf r s]) ∨ (s.request = some r ∧ T = s.trace)) :
    step s = .next (settle op k r (waitingOn r T s)) := by
  rw [step_run hrst hq]
  rcases hT with ⟨hr, rfl⟩ | ⟨hr, rfl⟩
  · rw [seqStep_action hq hr ha, startAction_request op k hreq]
    rfl
  · rw [seqStep_waiting hq hr, waitingOn, ← hr]

theorem markDone_initialized (op : Operation) (s : State) :
    (markDone op s).initialized = (op.isInit || s.initialized) := by
  cases op <;> rfl

/-- Completing an action is what `Completed` says, also of an earlier state with the same context and results. -/
theorem completeAction_completed (op : Operation) (k : Nat) {s u : State} (hr : u.request = none)
    (hp : u.params = s.params) (hl : u.lastResult = s.lastResult) (hresp : u.responses = s.responses)
    (hc : SameContext s u) : Completed op k s (completeAction op k u) := by
  rw [Completed, ← hp]
  rcases Nat.lt_or_ge (k + 1) (actions u.params op).length with hk | hk
  · rw [completeAction_more u hk]
    exact ⟨fun _ => ⟨rfl, hr, hl, hresp, hc⟩, fun hge => absurd hk (Nat.not_lt.mpr hge)⟩
  · rw [completeAction_last u hk]
    obtain ⟨hi, ha, hh, htp, htm⟩ := hc
    exact ⟨fun hlt => absurd hlt (Nat.not_lt.mpr hk),
      fun _ => by simp [EndedWith, markDone_initialized, hresp, hi, ha, hh, htp, htm]⟩

/-- Settles O13: `step_at_request`, with the answer that has come. -/
theorem stepAtARequest : Obligations.StepAtARequest := by
  intro s op k a r T hrst hq ha hreq hT
  have hstep := step_at_request hrst hq ha hreq hT
  refine ⟨?_, ?_⟩
  · rintro sel bytes rfl
    refine ⟨fun hans => ?_, fun e rest hans => ?_, fun rest hans => ?_⟩
    · rwa [settle_write_none (s := waitingOn _ T s) _ _ _ _ hans] at hstep
    · rw [settle_write_err (s := waitingOn _ T s) _ _ _ _ hans] at hstep
      exact ⟨_, hstep, by simp [EndedWith, waitingOn], by simp, by simp [waitingOn], by simp [waitingOn],
        fun _ => by simp [waitingOn], by simp [SameContext, waitingOn], by simp [SameInputs, waitingOn]⟩
    · rw [settle_write_ok (s := waitingOn _ T s) _ _ _ _ hans] at hstep
      exact ⟨_, hstep, completeAction_completed op k rfl rfl rfl rfl ⟨rfl, rfl, rfl, rfl, rfl⟩, by simp,
        by simp [waitingOn], by simp [waitingOn], fun _ => by simp [waitingOn], by simp [SameInputs, waitingOn]⟩
  · rintro ms rfl
    refine ⟨fun hd => ?_, fun n hd => ?_⟩
    · rwa [settle_delay_none (s := waitingOn _ T s) _ _ _ hd] at hstep
    · rw [settle_delay_done (s := waitingOn _ T s) _ _ _ hd] at hstep
      exact ⟨_, hstep, completeAction_completed op k rfl rfl rfl rfl ⟨rfl, rfl, rfl, rfl, rfl⟩,
        by simp [waitingOn], by simp, by simp [waitingOn], fun _ => by simp [waitingOn],
        by simp [SameInputs, waitingOn], by simp [waitingOn]⟩

/-! ## The big step of an operation -/

theorem run_succ {s u : State} (n : Nat) (h : step s = .next u) :
    Host.Core.run Sys2Proof.core (n + 1) s = Host.Core.run Sys2Proof.core n u := by
  simp only [Host.Core.run, core, h]

/-- From action `k` with as many steps as there are actions left, `drive` is single steps of the machine, at least one,
up to where the operation has ended or waits (R27). -/
theorem drive_is_steps {op : Operation} {n k : Nat} {s t : State} (hrst : s.rst = false) (hq : s.seq = .run op k)
    (hk : k < (actions s.params op).length) (hn : (actions s.params op).length = k + n) (h : drive n s = .next t) :
    ∃ m, 1 ≤ m ∧ m ≤ n ∧ Host.Core.run Sys2Proof.core m s = .next t ∧ (t.seq = .idle ∨ t.request ≠ none) := by
  induction n generalizing k s with
  | zero => omega
  | succ n ih =>
    simp only [drive] at h
    split at h
    · next u hu =>
      have hstep : step s = .next u := (step_run hrst hq).trans hu
      have hpar := seqStep_params hu
      rcases seqStep_progress hq hu with ⟨hq', hk', hr'⟩ | ⟨hq', hr'⟩ | ⟨hq', -⟩
      · rw [if_neg (by simp [settled, hq', hr', Seq.isIdle])] at h
        obtain ⟨m, hm1, hmn, hrun, hend⟩ :=
          ih ((seqStep_rst hu).trans hrst) hq' hk' (by rw [hpar]; omega) h
        exact ⟨m + 1, by omega, by omega, (run_succ m hstep).trans hrun, hend⟩
      · rw [if_pos (by simp [settled, Option.isSome_iff_ne_none, hr'])] at h
        cases h
        exact ⟨1, le_rfl, by omega, run_succ 0 hstep, .inr hr'⟩
      · rw [if_pos (by simp [settled, hq', Seq.isIdle])] at h
        cases h
        exact ⟨1, le_rfl, by omega, run_succ 0 hstep, .inl hq'⟩
    · cases h
    · cases h

/-- Settles O14: an accepted operation is `drive` from its first action, which `drive_is_steps` cuts into steps. -/
theorem bigStepIsTheStepsOfTheSequencer : Obligations.BigStepIsTheStepsOfTheSequencer := by
  rintro s t i op hrst ⟨hq, hr⟩ hop hargs h
  rw [exec_host hop, runOperation_accepted hq hr hargs] at h
  exact drive_is_steps (s := setSeq (.run op 0) s) hrst rfl (actions_length_pos s.params op) (Nat.zero_add _).symm h

/-! ## What writes the buffer -/

/-- The operations with an action that writes the buffer: `INIT`, `CLEAR`, `SET_PIXEL` (R114). -/
def Operation.WritesBuffer (op : Operation) : Prop :=
  (∃ a h, op = .init a h) ∨ op = .clear ∨ ∃ x y c, op = .setPixel x y c

theorem writesBuffer_of_action {p : Config.Params} {op : Operation} {k : Nat}
    (h : (actions p op)[k]? = some .zeroFill ∨ ∃ x y c, (actions p op)[k]? = some (.plot x y c)) :
    op.WritesBuffer := by
  rcases h with h | ⟨x, y, c, h⟩
  · have hop : op = .clear ∧ k = 0 ∨ op.isInit = true ∧ 0 < k := by simpa using action_cases h
    rcases hop with ⟨rfl, -⟩ | ⟨hinit, -⟩
    · exact .inr (.inl rfl)
    · cases op <;> cases hinit
      exact .inl ⟨_, _, rfl⟩
  · have hop : op = .setPixel x y c ∧ k = 0 := by simpa using action_cases h
    exact .inr (.inr ⟨x, y, c, hop.1⟩)

/-- The operation in progress stays the same one until it ends. -/
theorem seqStep_sameOperation {op : Operation} {s t : State} (h : seqStep s = .next t)
    (hq : s.seq = .idle ∨ ∃ k, s.seq = .run op k) : t.seq = .idle ∨ ∃ k, t.seq = .run op k := by
  rcases hq with hq | ⟨k, hq⟩
  · cases (seqStep_idle hq).symm.trans h
    exact .inl hq
  · rcases seqStep_progress hq h with ⟨hq', -⟩ | ⟨hq', -⟩ | ⟨hq', -⟩
    · exact .inr ⟨k + 1, hq'⟩
    · exact .inr ⟨k, hq'⟩
    · exact .inl hq'

theorem accept_seq (op : Operation) (s : State) :
    (accept op s).seq = .idle ∨ (accept op s).seq = .run op 0 := by
  unfold accept
  split
  · exact .inr rfl
  · exact .inl rfl

theorem accept_fb (op : Operation) (s : State) : (accept op s).fb = s.fb := by
  unfold accept
  split <;> rfl

/-- Nothing but `op` runs, and the buffer is still `m`. -/
def RunsOverBuffer (op : Operation) (m : Memory) (s : State) : Prop :=
  s.fb = m ∧ (s.seq = .idle ∨ ∃ k, s.seq = .run op k)

theorem seqStep_runsOverBuffer {op : Operation} {m : Memory} (hop : ¬ op.WritesBuffer) (s t : State)
    (hs : RunsOverBuffer op m s) (h : seqStep s = .next t) : RunsOverBuffer op m t := by
  obtain ⟨hfb, hseq⟩ := hs
  refine ⟨?_, seqStep_sameOperation h hseq⟩
  rcases seqStep_fb h with hsame | ⟨op', k, hq, hact⟩
  · exact hsame.trans hfb
  · rcases hseq with hidle | ⟨k', hq'⟩
    · simp [hidle] at hq
    · cases hq'.symm.trans hq
      exact absurd (writesBuffer_of_action hact) hop

/-- An operation with no action that writes the buffer leaves it. -/
theorem runOperation_fb {op : Operation} {s t : State} (h : runOperation op s = .next t) (hop : ¬ op.WritesBuffer) :
    t.fb = s.fb := by
  cases hq : s.seq with
  | run op' k =>
    cases (runOperation_busy hq).symm.trans h
    rfl
  | idle =>
    have hacc : RunsOverBuffer op s.fb (accept op s) :=
      ⟨accept_fb op s, (accept_seq op s).imp_right fun h0 => ⟨0, h0⟩⟩
    obtain ⟨hfb, -⟩ := runOperation_keeps (seqStep_runsOverBuffer hop) h (fun _ => hacc) ⟨rfl, .inl hq⟩
    exact hfb

/-- The instructions whose exec can change the buffer are those of the operations that write it. -/
theorem exec_fb {i : Instr} {s t : State} (h : exec i s = .next t)
    (hi : ∀ op, operationOf i = some op → ¬ op.WritesBuffer) : t.fb = s.fb := by
  cases hl : layerOf i with
  | hostCommand =>
    obtain ⟨op, hop⟩ := Option.isSome_iff_exists.mp ((operationOf_isSome_iff i).2 hl)
    rw [exec_host hop] at h
    exact runOperation_fb h (hi op hop)
  | hostResult =>
    obtain ⟨r, hr⟩ := exec_result hl s
    cases hr.symm.trans h
    rfl
  | transportSelector =>
    obtain ⟨sel, hsel⟩ := exec_selector hl s
    cases hsel.symm.trans h
    rfl
  | panelCommand =>
    cases (exec_panel hl s).symm.trans h
    rfl

/-- Settles O37: `exec_fb` for an instruction, `seqStep_fb` for a step of a running operation. -/
theorem onlyThreeOperationsWriteTheBuffer : Obligations.OnlyThreeOperationsWriteTheBuffer := by
  refine ⟨fun s t i h ⟨a, ha⟩ => ?_, fun s t op k hrst hq h ⟨a, ha⟩ => ?_⟩
  · by_contra hi
    refine ha (congrArg (Memory.read · a) (exec_fb h fun op hop hw => hi ?_))
    rcases hw with ⟨b, hd, rfl⟩ | rfl | ⟨x, y, c, rfl⟩
    · cases i <;> cases hop
      exact .inl ⟨b, hd, rfl⟩
    · cases i <;> cases hop
      exact .inr (.inl rfl)
    · cases i <;> cases hop
      exact .inr (.inr ⟨x, y, c, rfl⟩)
  · rcases seqStep_fb ((step_run hrst hq).symm.trans h) with hsame | ⟨op', k', hq', hact⟩
    · exact absurd (congrArg (Memory.read · a) hsame) ha
    · cases hq.symm.trans hq'
      exact hact

/-! ## The handle check -/

/-- No operation has ended with `InvalidArgument`. -/
def NoInvalidArgument (s : State) : Prop := s.seq = .idle → s.lastResult ≠ .invalidArgument

/-- No step of the sequencer ends an operation with `InvalidArgument`: that is decided when it is accepted (R161). -/
theorem seqStep_noInvalidArgument (s t : State) (hs : NoInvalidArgument s) (h : seqStep s = .next t) :
    NoInvalidArgument t := by
  intro hidle
  cases hq : s.seq with
  | idle =>
    cases (seqStep_idle hq).symm.trans h
    exact hs hq
  | run op k =>
    rcases seqStep_progress hq h with ⟨hq', -⟩ | ⟨hq', -⟩ | ⟨-, ⟨-, hres⟩ | ⟨e, rest, -, hres⟩⟩
    · simp [hidle] at hq'
    · simp [hidle] at hq'
    · simp [hres]
    · simp [hres]

/-- An operation whose checks pass does not end with `InvalidArgument`. -/
theorem runOperation_noInvalidArgument {op : Operation} {s t : State} (hs : Ready s) (hargs : argsOk op s = true)
    (h : runOperation op s = .next t) : NoInvalidArgument t := by
  obtain ⟨hq, hr⟩ := hs
  rw [runOperation_accepted hq hr hargs] at h
  exact drive_keeps seqStep_noInvalidArgument h nofun

/-- Settles O45: the invariant's clause of the handles (R35), and with both bound the handle check passes (R99). -/
theorem initializedContextHasItsHandles : Obligations.InitializedContextHasItsHandles := by
  rintro s ⟨-, -, hctx, -⟩ hinit
  obtain ⟨htp, htm⟩ := hctx hinit
  refine ⟨htp, htm, fun hs i hi h => ?_⟩
  have hhandles : handlesOk s = true := by simp [handlesOk, htp, htm]
  have hends {op : Operation} (hop : operationOf i = some op) (hargs : argsOk op s = true) : False :=
    runOperation_noInvalidArgument hs hargs ((exec_host hop s).symm.trans h) hs.1 rfl
  rcases hi with rfl | rfl | rfl
  · exact hends rfl hhandles
  · exact hends rfl hhandles
  · exact hends rfl hhandles

end Sys2Proof.Machine
end

section
/-! PROOFS. `SET_PIXEL` and the other pixels. -/

namespace Sys2Proof.Machine

open Sys2Proof

/-- The state after `SET_PIXEL`'s read-modify-write of one byte (R112). -/
def plotted (x y : Byte) (c : Color) (s : State) : State :=
  setFb (Memory.write s.fb (linear (pageOf y) x.toNat)
    (withPixel y c (Memory.read s.fb (linear (pageOf y) x.toNat)))) s

theorem plotPixel_eq_plotted (s : State) {x y : Byte} (c : Color) (hx : x.toNat < 128) (hy : y.toNat < 64) :
    plotPixel x y c s = some (plotted x y c s) := plotPixel_eq s c hx hy

/-- `SET_PIXEL`'s one action writes its byte and ends the operation with `OK`. -/
theorem seqStep_setPixel {s : State} {x y : Byte} {c : Color} (hq : s.seq = .run (.setPixel x y c) 0)
    (hr : s.request = none) (hx : x.toNat < 128) (hy : y.toNat < 64) :
    seqStep s = .next (finish .ok (plotted x y c s)) := by
  rw [seqStep_action (a := .plot x y c) hq hr rfl, startAction, plotPixel_eq_plotted s c hx hy]
  rfl

/-- `SET_PIXEL` of a pixel of the panel, with an initialised context: the byte is written and the operation ends with
`OK` (R112). -/
theorem exec_setPixel_accepted {s : State} {x y : Byte} (c : Color) (hs : Ready s) (hi : s.initialized = true)
    (hx : x.toNat < 128) (hy : y.toNat < 64) :
    exec (.setPixel x y c) s = .next (onlyResult .ok (plotted x y c s)) := by
  obtain ⟨hq, hr⟩ := hs
  have hargs : argsOk (.setPixel x y c) s = true := by simp [argsOk, contextOk, hi, (onPanel_iff x y).2 ⟨hx, hy⟩]
  rw [exec_host rfl, runOperation_accepted hq hr hargs, ← finish_eq_onlyResult .ok (s := plotted x y c s) ⟨hq, hr⟩]
  exact drive_stop (seqStep_setPixel (s := setSeq (.run (.setPixel x y c) 0) s) rfl hr hx hy) rfl

/-- `SET_PIXEL` with a context that is not initialised changes only the result (R110). -/
theorem exec_setPixel_uninitialized {s : State} {x y : Byte} (c : Color) (hs : Ready s) (hi : s.initialized = false) :
    exec (.setPixel x y c) s = .next (onlyResult .invalidArgument s) := by
  rw [exec_host rfl, runOperation_invalid hs.1 (by simp [argsOk, contextOk, hi]), finish_eq_onlyResult _ hs]

/-- The mask of row `y` has the one bit `y % 8` (R112). -/
theorem pixelMask_getLsbD (y : Byte) (n : Nat) : (pixelMask y).getLsbD n = decide (bitOf y = n) := by
  have hb : bitOf y < 8 := Nat.mod_lt _ (by decide)
  rw [pixelMask, ← BitVec.twoPow_eq, BitVec.getLsbD_twoPow]
  simp [hb]

/-- The byte with one row's pixel set keeps the bits of the other rows. -/
theorem withPixel_getLsbD_ne {y y' : Byte} (c : Color) (v : Byte) (h : bitOf y ≠ bitOf y') :
    (withPixel y c v).getLsbD (bitOf y') = v.getLsbD (bitOf y') := by
  have hb : bitOf y' < 8 := Nat.mod_lt _ (by decide)
  have hmask : (pixelMask y).getLsbD (bitOf y') = false := by simp [pixelMask_getLsbD, h]
  cases c with
  | off => rw [withPixel, BitVec.getLsbD_and, BitVec.getLsbD_not, hmask]; simp [hb]
  | on => rw [withPixel, BitVec.getLsbD_or, hmask, Bool.or_false]

/-- A pixel is the page of its row, its column and its bit (R22). -/
theorem eq_of_pageOf_of_bitOf {y y' : Byte} (hp : pageOf y = pageOf y') (hb : bitOf y = bitOf y') : y = y' := by
  apply BitVec.eq_of_toNat_eq
  unfold pageOf at hp
  unfold bitOf at hb
  rw [← Nat.div_add_mod y.toNat Config.rowsPerPage, hp, hb, Nat.div_add_mod]

/-- Settles O26: another pixel is of another byte, or of another bit of the same byte. -/
theorem otherPixelsKeepTheirColor : Obligations.OtherPixelsKeepTheirColor := by
  intro s t x y x' y' c hx hy hx' hy' hne hs h
  cases hi : s.initialized with
  | false =>
    cases (exec_setPixel_uninitialized c hs hi).symm.trans h
    rfl
  | true =>
    cases (exec_setPixel_accepted c hs hi hx hy).symm.trans h
    show (Memory.read (Memory.write _ _ _) _).getLsbD _ = _
    by_cases ha : linear (pageOf y') x'.toNat = linear (pageOf y) x.toNat
    · obtain ⟨hpage, hcol⟩ := (linear_inj hx' hx).1 ha
      obtain rfl := BitVec.eq_of_toNat_eq hcol
      have hbit : bitOf y ≠ bitOf y' := fun hb =>
        hne.resolve_left (fun hxx => hxx rfl) (eq_of_pageOf_of_bitOf hpage.symm hb)
      rw [pixel, ha, Memory.read_write_same, withPixel_getLsbD_ne c _ hbit]
    · rw [pixel, Memory.read_write_ne _ _ ha]

end Sys2Proof.Machine
end

section
/-! PROOFS. The panel and the block: what panel commands leave, and that the block never reads the panel. -/

namespace Sys2Proof.Machine

open Sys2Proof

/-- Settles O50: a panel command is its effect on the panel, which keeps the display memory and the unfinished command;
a selector selects a channel. -/
theorem panelCommandsLeaveTheBlock : Obligations.PanelCommandsLeaveTheBlock := by
  rintro s i (hl | hl)
  · exact ⟨_, exec_panel hl s, rfl, Panel.effect_pending i s.panel, fun p c => by simp [Panel.byteAt], fun _ => rfl⟩
  · obtain ⟨sel, hsel⟩ := exec_selector hl s
    exact ⟨_, hsel, rfl, rfl, fun _ _ => rfl, fun hp => by simp [hl] at hp⟩

/-! ## Another panel under a running operation -/

theorem completeAction_setPanel (op : Operation) (k : Nat) (q : Panel) (s : State) :
    completeAction op k (setPanel q s) = setPanel q (completeAction op k s) := by
  unfold completeAction
  rw [setPanel_params]
  split
  · rfl
  · cases op <;> rfl

theorem issue_setPanel (r : Request) (q : Panel) (s : State) :
    issue r (setPanel q s) = setPanel q (issue r s) := by
  cases r <;> rfl

/-- Taking an answer reads the panel for the panel alone. -/
theorem settle_setPanel (op : Operation) (k : Nat) (r : Request) (q : Panel) (s : State) :
    ∃ q', settle op k r (setPanel q s) = setPanel q' (settle op k r s) := by
  rcases settle_cases op k r s with
    ⟨h, ⟨sel, bytes, rfl, hans⟩ | ⟨ms, rfl, hd⟩⟩ | ⟨sel, bytes, rest, rfl, hans, h⟩ |
    ⟨sel, bytes, e, rest, rfl, hans, h⟩ | ⟨ms, n, rfl, hd, h⟩ <;> rw [h]
  · exact ⟨q, settle_write_none _ _ _ _ hans⟩
  · exact ⟨q, settle_delay_none _ _ _ hd⟩
  · exact ⟨q.take sel bytes, (settle_write_ok (s := setPanel q s) _ _ _ _ hans).trans
      (completeAction_setPanel op k _ (deliver sel bytes (takeAnswer rest s)))⟩
  · exact ⟨q.torn sel bytes, settle_write_err _ _ _ _ hans⟩
  · exact ⟨q, (settle_delay_done (s := setPanel q s) _ _ _ hd).trans
      (completeAction_setPanel op k q (takeDelay n s))⟩

theorem plotPixel_setPanel (x y : Byte) (c : Color) (q : Panel) (s : State) :
    plotPixel x y c (setPanel q s) = (plotPixel x y c s).map (setPanel q) := by
  unfold plotPixel fbRead fbWrite
  split_ifs <;> rfl

theorem startAction_setPanel (op : Operation) (k : Nat) (a : Action) (q : Panel) (s : State) :
    ∃ q', startAction op k a (setPanel q s) = mapNext (setPanel q') (startAction op k a s) := by
  have hrequest {r : Request} (hr : requestOf a s = some r) :
      ∃ q', startAction op k a (setPanel q s) = mapNext (setPanel q') (startAction op k a s) := by
    obtain ⟨q', hq'⟩ := settle_setPanel op k r q (issue r s)
    have hr' : requestOf a (setPanel q s) = some r := by rw [← hr]; cases a <;> rfl
    exact ⟨q', by rw [startAction_request op k hr, startAction_request op k hr', issue_setPanel, hq']; rfl⟩
  cases a with
  | bind addr hd => exact ⟨q, congrArg _ (completeAction_setPanel op k q (bindContext addr hd s))⟩
  | unmark => exact ⟨q, congrArg _ (completeAction_setPanel op k q (setInitialized false s))⟩
  | zeroFill => exact ⟨q, congrArg _ (completeAction_setPanel op k q (setFb [] s))⟩
  | plot x y c =>
    refine ⟨q, ?_⟩
    simp only [startAction, plotPixel_setPanel]
    cases plotPixel x y c s with
    | none => rfl
    | some u => exact congrArg _ (completeAction_setPanel op k q u)
  | send b => exact hrequest rfl
  | delay ms => exact hrequest rfl
  | burst p => exact hrequest rfl

/-- A step of the sequencer with another panel is the same step but for the panel. -/
theorem seqStep_setPanel (q : Panel) (s : State) :
    ∃ q', seqStep (setPanel q s) = mapNext (setPanel q') (seqStep s) := by
  cases hq : s.seq with
  | idle => exact ⟨q, by rw [seqStep_idle hq, seqStep_idle (s := setPanel q s) hq]; rfl⟩
  | run op k =>
    cases hr : s.request with
    | some r =>
      obtain ⟨q', hq'⟩ := settle_setPanel op k r q s
      exact ⟨q', by rw [seqStep_waiting hq hr, seqStep_waiting (s := setPanel q s) hq hr, hq']; rfl⟩
    | none =>
      cases ha : (actions s.params op)[k]? with
      | some a =>
        rw [seqStep_action hq hr ha, seqStep_action (s := setPanel q s) hq hr ha]
        exact startAction_setPanel op k a q s
      | none => exact ⟨q, by simp [seqStep, hq, hr, ha, mapNext]⟩

theorem drive_setPanel (n : Nat) (q : Panel) (s : State) :
    ∃ q', drive n (setPanel q s) = mapNext (setPanel q') (drive n s) := by
  induction n generalizing q s with
  | zero => exact ⟨q, rfl⟩
  | succ n ih =>
    obtain ⟨q', hq'⟩ := seqStep_setPanel q s
    cases hs : seqStep s with
    | next u =>
      rw [hs] at hq'
      cases hset : settled u with
      | true => exact ⟨q', by rw [drive_stop hs hset, drive_stop hq' hset]; rfl⟩
      | false =>
        rw [drive_go hs hset, drive_go hq' hset]
        exact ih q' u
    | fault f => exact ⟨q, by simp [drive, hq', hs, mapNext]⟩
    | refused r => exact ⟨q, by simp [drive, hq', hs, mapNext]⟩

theorem accept_setPanel (op : Operation) (q : Panel) (s : State) :
    accept op (setPanel q s) = setPanel q (accept op s) := by
  have hargs : argsOk op (setPanel q s) = argsOk op s := by cases op <;> rfl
  unfold accept
  rw [hargs]
  split <;> rfl

/-- A whole operation with another panel is the same operation but for the panel. -/
theorem runOperation_setPanel (op : Operation) (q : Panel) (s : State) :
    ∃ q', runOperation op (setPanel q s) = mapNext (setPanel q') (runOperation op s) := by
  cases hq : s.seq with
  | run op' k => exact ⟨q, by rw [runOperation_busy hq, runOperation_busy (s := setPanel q s) hq]; rfl⟩
  | idle =>
    simp only [runOperation, setPanel_seq, hq, accept_setPanel, setPanel_params]
    have hset : settled (setPanel q (accept op s)) = settled (accept op s) := rfl
    rw [hset]
    split
    · exact ⟨q, rfl⟩
    · exact drive_setPanel _ q (accept op s)

/-- Settles O58: a whole operation and a step of the sequencer with another panel, and R204's power cycle, of whose
display memory nothing is listed. -/
theorem blockNeverNoticesThePanel : Obligations.BlockNeverNoticesThePanel := by
  refine ⟨fun s q i hi => ?_, fun s q op k hrst hq => ?_, fun s => ⟨rfl, fun _ _ => rfl⟩⟩
  · obtain ⟨op, hop⟩ := Option.isSome_iff_exists.mp ((operationOf_isSome_iff i).2 hi)
    rw [exec_host hop, exec_host hop]
    exact runOperation_setPanel op q s
  · rw [step_run hrst hq, step_run (s := { s with panel := q }) hrst hq]
    exact seqStep_setPanel q s

end Sys2Proof.Machine
end

section
/-! PROOFS. The reset state, and the result words. -/

namespace Sys2Proof.Machine

open Sys2Proof

/-- Settles O6: an empty listing reads 0x00 everywhere, and the registers are as R34 gives them. -/
theorem resetLeavesTheBlockZeroed : Obligations.ResetLeavesTheBlockZeroed :=
  ⟨fun _ _ hp hc => fbRead_eq State.reset hp hc, rfl, rfl, rfl, rfl, rfl, rfl, rfl⟩

/-- Settles O42, clause by clause. -/
theorem resetIsSound : Obligations.ResetIsSound :=
  ⟨State.reset_fb_wf, Panel.reset_wf, nofun, rfl, rfl, rfl, rfl, rfl, nofun, rfl⟩

/-- The result word of an error: 0x0200 and the error (R70). -/
theorem Result.word_ioError (e : IoErr) : Result.word (.ioError e) = 0x0200#16 + e.setWidth 16 := by
  apply BitVec.eq_of_toNat_eq
  have he := e.isLt
  simp only [Result.word, Result.kind, Result.ioErr, BitVec.toNat_append, BitVec.toNat_add, BitVec.toNat_setWidth]
  rw [← Nat.shiftLeft_add_eq_or_of_lt he]
  simp
  omega

/-- Settles O46: a result word is `finish` with its result. -/
theorem resultWordsEndTheOperation : Obligations.ResultWordsEndTheOperation := by
  intro s e
  refine ⟨rfl, rfl, ?_⟩
  rw [← Result.word_ioError]
  rfl

end Sys2Proof.Machine
end

section
/-! PROOFS. What answers a next state: the sequencer at an action it can make, every instruction, every step of a sound
state; and where a step is refused. -/

namespace Sys2Proof.Machine

open Sys2Proof

/-! ## The sequencer goes on -/

/-- Where the sequencer is to begin an action there is one (10_state.md R27), and a pixel to be written is one of the
panel (20_memory.md R41). -/
def CanGoOn (s : State) : Prop :=
  ∀ op k, s.seq = .run op k → s.request = none →
    ∃ a, (actions s.params op)[k]? = some a ∧ ∀ x y c, a = .plot x y c → onPanel x y = true

/-- A pixel write is the one action of its `SET_PIXEL` (R112). -/
theorem setPixel_of_plot {p : Config.Params} {op : Operation} {k : Nat} {x y : Byte} {c : Color}
    (h : (actions p op)[k]? = some (.plot x y c)) : op = .setPixel x y c ∧ k = 0 := by
  simpa using action_cases h

theorem canGoOn_of_idle {s : State} (h : s.seq = .idle) : CanGoOn s := by
  intro op k hq
  simp [h] at hq

/-- In a sound state the sequencer can go on. -/
theorem Inv.canGoOn {s : State} (h : Inv s) : CanGoOn s := by
  intro op k hq _
  obtain ⟨hst, a, ha, -⟩ := (seqOk_run_iff hq).1 h.seq_ok
  refine ⟨a, ha, ?_⟩
  rintro x y c rfl
  obtain ⟨rfl, -⟩ := setPixel_of_plot ha
  obtain ⟨-, hxy⟩ := (Bool.and_eq_true _ _).mp hst
  exact hxy

/-- An operation that has been accepted can begin: `SET_PIXEL`'s check was of its pixel (R112, R163). -/
theorem canGoOn_accept (op : Operation) (s : State) : CanGoOn (accept op s) := by
  unfold accept
  split
  · next hargs =>
    intro op' k hq _
    cases hq
    have ha := List.getElem?_eq_getElem (actions_length_pos s.params op)
    refine ⟨_, ha, fun x y c hplot => ?_⟩
    obtain ⟨rfl, -⟩ := setPixel_of_plot (ha.trans (congrArg some hplot))
    obtain ⟨-, hxy⟩ := (Bool.and_eq_true _ _).mp hargs
    exact hxy
  · exact canGoOn_of_idle rfl

/-- A step of the sequencer leads to where it can go on: of its three ways, one is to another action of the list, and
none of these after the first writes a pixel. -/
theorem canGoOn_seqStep {s t : State} (hs : CanGoOn s) (h : seqStep s = .next t) : CanGoOn t := by
  cases hq : s.seq with
  | idle =>
    cases (seqStep_idle hq).symm.trans h
    exact hs
  | run op k =>
    intro op' k' hq' hr'
    rcases seqStep_progress hq h with ⟨hnext, hk, -⟩ | ⟨-, hwait⟩ | ⟨hidle, -⟩
    · cases hnext.symm.trans hq'
      have ha := List.getElem?_eq_getElem hk
      refine ⟨_, ha, fun x y c hplot => ?_⟩
      obtain ⟨-, hzero⟩ := setPixel_of_plot (ha.trans (congrArg some hplot))
      cases hzero
    · exact absurd hr' hwait
    · simp [hidle] at hq'

/-- Any action but a pixel write off the panel answers a next state. -/
theorem startAction_answers (op : Operation) (k : Nat) {a : Action} (s : State)
    (ha : ∀ x y c, a = .plot x y c → onPanel x y = true) : ∃ t, startAction op k a s = .next t := by
  cases a with
  | bind addr hd => exact ⟨_, rfl⟩
  | unmark => exact ⟨_, rfl⟩
  | send b => exact ⟨_, rfl⟩
  | delay ms => exact ⟨_, rfl⟩
  | zeroFill => exact ⟨_, rfl⟩
  | plot x y c =>
    obtain ⟨hx, hy⟩ := (onPanel_iff x y).1 (ha x y c rfl)
    exact ⟨_, by rw [startAction, plotPixel_eq s c hx hy]; rfl⟩
  | burst p => exact ⟨_, rfl⟩

theorem seqStep_answers {s : State} (hs : CanGoOn s) : ∃ t, seqStep s = .next t := by
  cases hq : s.seq with
  | idle => exact ⟨s, seqStep_idle hq⟩
  | run op k =>
    cases hr : s.request with
    | some r => exact ⟨_, seqStep_waiting hq hr⟩
    | none =>
      obtain ⟨a, ha, hplot⟩ := hs op k hq hr
      rw [seqStep_action hq hr ha]
      exact startAction_answers op k s hplot

theorem drive_answers (n : Nat) {s : State} (hs : CanGoOn s) : ∃ t, drive n s = .next t := by
  induction n generalizing s with
  | zero => exact ⟨s, rfl⟩
  | succ n ih =>
    obtain ⟨u, hu⟩ := seqStep_answers hs
    cases hset : settled u with
    | true => exact ⟨u, drive_stop hu hset⟩
    | false =>
      rw [drive_go hu hset]
      exact ih (canGoOn_seqStep hs hu)

/-! ## Every instruction answers -/

theorem runOperation_answers (op : Operation) (s : State) : ∃ t, runOperation op s = .next t := by
  cases hq : s.seq with
  | run op' k => exact ⟨s, runOperation_busy hq⟩
  | idle =>
    simp only [runOperation, hq]
    split
    · exact ⟨_, rfl⟩
    · exact drive_answers _ (canGoOn_accept op s)

/-- Every instruction answers a next state, in every state. -/
theorem exec_answers (i : Instr) (s : State) : ∃ t, exec i s = .next t := by
  cases hl : layerOf i with
  | hostCommand =>
    obtain ⟨op, hop⟩ := Option.isSome_iff_exists.mp ((operationOf_isSome_iff i).2 hl)
    rw [exec_host hop]
    exact runOperation_answers op s
  | hostResult =>
    obtain ⟨r, hr⟩ := exec_result hl s
    exact ⟨_, hr⟩
  | transportSelector =>
    obtain ⟨sel, hsel⟩ := exec_selector hl s
    exact ⟨_, hsel⟩
  | panelCommand => exact ⟨_, exec_panel hl s⟩

/-! ## Refusals -/

/-- `r` names the next thing offered, which is a result word or a selector that no instruction has (30_encoding.md R70,
R73). -/
def RefusesOffer (s : State) (r : Refusal) : Prop :=
  ∃ rest, (∃ w, s.port = .result w :: rest ∧ decodeResult w = none ∧ r = .resultNeverProduced w) ∨
    (∃ b, s.port = .selector b :: rest ∧ decodeSelector b = none ∧ r = .selectorNeverSent b)

/-- A step in `IDLE` answers a next state or refuses what is offered. -/
theorem stepIdle_answers_or_refuses (s : State) :
    (∃ t, stepIdle s = .next t) ∨ ∃ r, stepIdle s = .refused r ∧ RefusesOffer s r := by
  unfold stepIdle
  rcases fetch_cases s with ⟨-, hf⟩ | ⟨i, p, hf⟩ | ⟨w, p, -, -, hf⟩ | ⟨p, hf⟩ | ⟨b, p, hf⟩ | ⟨b, p, hf⟩ |
    ⟨w, rest, hp, hd, hf⟩ | ⟨b, rest, hp, hd, hf⟩ <;> rw [hf]
  · exact .inl ⟨_, rfl⟩
  · exact .inl (exec_answers i _)
  · exact .inl ⟨_, rfl⟩
  · exact .inl ⟨_, rfl⟩
  · exact .inl ⟨_, rfl⟩
  · exact .inl ⟨_, rfl⟩
  · exact .inr ⟨_, rfl, rest, .inl ⟨w, hp, hd, rfl⟩⟩
  · exact .inr ⟨_, rfl, rest, .inr ⟨b, hp, hd, rfl⟩⟩

/-- In a sound state nothing is offered that is refused: no result word (R12), no other selector (R73). -/
theorem Inv.not_refusesOffer {s : State} {r : Refusal} (h : Inv s) : ¬ RefusesOffer s r := by
  obtain ⟨-, -, -, -, -, hport, -⟩ := h
  rintro ⟨rest, ⟨w, hp, -, -⟩ | ⟨b, hp, hd, -⟩⟩
  · simp [hp, Offer.fromOutside] at hport
  · simp [hp, Offer.fromOutside, hd] at hport

theorem startAction_ne_refused (op : Operation) (k : Nat) (a : Action) (s : State) (r : Refusal) :
    startAction op k a s ≠ .refused r := by
  cases a with
  | plot x y c =>
    rw [startAction]
    cases plotPixel x y c s <;> exact nofun
  | bind addr hd => exact nofun
  | unmark => exact nofun
  | send b => exact nofun
  | delay ms => exact nofun
  | zeroFill => exact nofun
  | burst p => exact nofun

/-- The sequencer may stop with a fault, but refuses nothing. -/
theorem seqStep_ne_refused (s : State) (r : Refusal) : seqStep s ≠ .refused r := by
  unfold seqStep
  split
  · exact nofun
  · split
    · exact nofun
    · split
      · exact startAction_ne_refused _ _ _ s r
      · exact nofun

/-- A step of a sound state answers a next state: a reset always does, the sequencer stands at an action, and nothing
is offered that is refused. -/
theorem step_answers {s : State} (h : Inv s) : ∃ t, step s = .next t := by
  cases hrst : s.rst with
  | true => exact ⟨_, step_rst hrst⟩
  | false =>
    cases hq : s.seq with
    | run op k =>
      rw [step_run hrst hq]
      exact seqStep_answers h.canGoOn
    | idle =>
      rw [step_idle hrst hq]
      refine (stepIdle_answers_or_refuses s).resolve_right ?_
      rintro ⟨r, -, hr⟩
      exact h.not_refusesOffer hr

/-- A step refuses only what is offered. -/
theorem refusesOffer_of_step {s : State} {r : Refusal} (h : step s = .refused r) : RefusesOffer s r := by
  cases hrst : s.rst with
  | true => cases (step_rst hrst).symm.trans h
  | false =>
    cases hq : s.seq with
    | run op k => exact absurd ((step_run hrst hq).symm.trans h) (seqStep_ne_refused s r)
    | idle =>
      rw [step_idle hrst hq] at h
      rcases stepIdle_answers_or_refuses s with ⟨t, ht⟩ | ⟨r', hr', hoffer⟩
      · cases ht.symm.trans h
      · cases hr'.symm.trans h
        exact hoffer

/-- Settles O41: `step_answers` and `refusesOffer_of_step`. -/
theorem soundStatesDoNotStop : Obligations.SoundStatesDoNotStop :=
  ⟨fun _ => step_answers, fun _ _ => refusesOffer_of_step⟩

end Sys2Proof.Machine
end

section
/-! PROOFS. The buffer's linear addresses, and the transport's selectors. -/

namespace Sys2Proof.Machine

open Sys2Proof

theorem linear_div {c : Nat} (p : Nat) (hc : c < 128) : linear p c / 128 = p := by
  simp only [linear, Config.width]; omega

theorem linear_mod {c : Nat} (p : Nat) (hc : c < 128) : linear p c % 128 = c := by
  simp only [linear, Config.width]; omega

/-- An address is that of its quotient and remainder. -/
theorem linear_div_mod (a : Nat) : linear (a / 128) (a % 128) = a := Nat.div_add_mod' a 128

/-- Bits 9 to 7 of an address are its page. -/
theorem extractLsb'_page {a : Nat} (h : a < 1024) :
    (BitVec.extractLsb' 7 3 (BitVec.ofNat 10 a)).toNat = a / 128 := by
  simp only [BitVec.extractLsb'_toNat, BitVec.toNat_ofNat, Nat.shiftRight_eq_div_pow]
  omega

/-- Bits 6 to 0 of an address are its column. -/
theorem extractLsb'_column (a : Nat) :
    (BitVec.extractLsb' 0 7 (BitVec.ofNat 10 a)).toNat = a % 128 := by
  simp only [BitVec.extractLsb'_toNat, BitVec.toNat_ofNat, Nat.shiftRight_zero]
  omega

/-- Settles O27: division by the row length 128 inverts `linear`, and cuts an address at bit 7. -/
theorem linearAddressesAreRowMajor : Obligations.LinearAddressesAreRowMajor :=
  ⟨fun p _ hp hc => ⟨rfl, linear_lt hp hc, linear_div p hc, linear_mod p hc⟩,
    fun a ha => ⟨Nat.div_lt_of_lt_mul ha, linear_div_mod a, (extractLsb'_page ha).symm, (extractLsb'_column a).symm⟩,
    fun _ _ _ => rfl⟩

/-- Settles O47: a selector's meaning is `setChannel` of its channel. -/
theorem selectorsSelectTheChannel : Obligations.SelectorsSelectTheChannel := fun _ => ⟨rfl, rfl⟩

end Sys2Proof.Machine
end

section
/-! PROOFS. The decoders read each instruction's own bytes, and nothing else. -/

namespace Sys2Proof

open BitVec (extractLsb'_append_eq_of_le extractLsb'_append_extractLsb'_eq_extractLsb')

/-- The mask of `INIT` keeps what no operand can change (30_encoding.md R66). -/
theorem initWord_matches (a : BusAddr) (h : BusHandle) :
    matchesRow (initWord a h) Config.initMask Config.initMatch = true := by
  have hmask : (0x1#4 ++ 0x000#12 ++ h ++ 0#1 ++ a) &&& (0xF#4 ++ 0xFFF#12 ++ 0#8 ++ 1#1 ++ 0#7) =
      0x1#4 ++ 0x000#12 ++ 0#8 ++ 0#1 ++ 0#7 := by
    simp only [BitVec.and_append, BitVec.and_zero]
    rfl
  exact beq_of_eq hmask

/-- The mask of `SET_PIXEL` keeps what no operand can change (R67). -/
theorem setPixelWord_matches (x y : Byte) (c : Color) :
    matchesRow (setPixelWord x y c) Config.setPixelMask Config.setPixelMatch = true := by
  have hmask : (0x6#4 ++ 0x000#11 ++ bitOfColor c ++ y ++ x) &&& (0xF#4 ++ 0x7FF#11 ++ 0#1 ++ 0#8 ++ 0#8) =
      0x6#4 ++ 0x000#11 ++ 0#1 ++ 0#8 ++ 0#8 := by
    simp only [BitVec.and_append, BitVec.and_zero]
    rfl
  exact beq_of_eq hmask

/-- A field that a mask keeps whole is the same field of what the mask leaves. -/
theorem extractLsb'_of_and_eq {w : Nat} {x mask r : BitVec w} {start len : Nat} (h : x &&& mask = r)
    (hm : mask.extractLsb' start len = BitVec.allOnes len) : x.extractLsb' start len = r.extractLsb' start len := by
  rw [← h, BitVec.extractLsb'_and, hm, BitVec.and_allOnes]

/-- A word cut into the fields of an `INIT` word. -/
theorem init_fields (w : Word32) :
    w.extractLsb' 16 16 ++ w.extractLsb' 8 8 ++ w.extractLsb' 7 1 ++ w.extractLsb' 0 7 = w := by
  rw [extractLsb'_append_extractLsb'_eq_extractLsb' (start₁ := 8) (len₁ := 8) rfl,
    extractLsb'_append_extractLsb'_eq_extractLsb' (start₁ := 7) (len₁ := 1) rfl,
    extractLsb'_append_extractLsb'_eq_extractLsb' (start₁ := 0) (len₁ := 7) rfl]
  exact BitVec.extractLsb'_eq_self

/-- A word of `INIT`'s row is the `INIT` word of its two operand fields: its other fields are the row's own (R66). -/
theorem eq_initWord {w : Word32} (h : matchesRow w Config.initMask Config.initMatch = true) :
    w = initWord (w.extractLsb' 0 7) (w.extractLsb' 8 8) := by
  have hmask : w &&& Config.initMask = Config.initMatch := eq_of_beq h
  have hhigh : w.extractLsb' 16 16 = 0x1#4 ++ 0x000#12 := extractLsb'_of_and_eq hmask (by decide)
  have hbit : w.extractLsb' 7 1 = 0#1 := extractLsb'_of_and_eq hmask (by decide)
  rw [initWord, ← hhigh, ← hbit]
  exact (init_fields w).symm

/-- The colour read from bit 16 is the one whose bit it is (R67). -/
theorem bitOfColor_colorOfBit (w : Word32) : bitOfColor (colorOfBit (w.getLsbD 16)) = w.extractLsb' 16 1 := by
  rw [BitVec.getLsbD_eq_extractLsb']
  generalize w.extractLsb' 16 1 = b
  revert b
  decide

/-- A word cut into the fields of a `SET_PIXEL` word. -/
theorem setPixel_fields (w : Word32) :
    w.extractLsb' 17 15 ++ w.extractLsb' 16 1 ++ w.extractLsb' 8 8 ++ w.extractLsb' 0 8 = w := by
  rw [extractLsb'_append_extractLsb'_eq_extractLsb' (start₁ := 16) (len₁ := 1) rfl,
    extractLsb'_append_extractLsb'_eq_extractLsb' (start₁ := 8) (len₁ := 8) rfl,
    extractLsb'_append_extractLsb'_eq_extractLsb' (start₁ := 0) (len₁ := 8) rfl]
  exact BitVec.extractLsb'_eq_self

/-- A word of `SET_PIXEL`'s row is the `SET_PIXEL` word of its three operand fields (R67). -/
theorem eq_setPixelWord {w : Word32} (h : matchesRow w Config.setPixelMask Config.setPixelMatch = true) :
    w = setPixelWord (w.extractLsb' 0 8) (w.extractLsb' 8 8) (colorOfBit (w.getLsbD 16)) := by
  have hmask : w &&& Config.setPixelMask = Config.setPixelMatch := eq_of_beq h
  have hhigh : w.extractLsb' 17 15 = 0x6#4 ++ 0x000#11 := extractLsb'_of_and_eq hmask (by decide)
  rw [setPixelWord, bitOfColor_colorOfBit, ← hhigh]
  exact (setPixel_fields w).symm

/-! ## The operation code -/

/-- The `op` field of a command word (R65). -/
def opField (w : Word32) : BitVec 4 := w.extractLsb' 28 4

/-- The rows with operands have the `op` of their match. -/
theorem opField_of_init {w : Word32} (h : matchesRow w Config.initMask Config.initMatch = true) : opField w = 1 :=
  extractLsb'_of_and_eq (eq_of_beq h) (by decide)

theorem opField_of_setPixel {w : Word32} (h : matchesRow w Config.setPixelMask Config.setPixelMatch = true) :
    opField w = 6 :=
  extractLsb'_of_and_eq (eq_of_beq h) (by decide)

/-! ## Command words -/

/-- The decoder reads `INIT` with its operands from the `INIT` word. -/
theorem decodeCommand_initWord (a : BusAddr) (h : BusHandle) : decodeCommand (initWord a h) = some (.init a h) := by
  have haddr : (initWord a h).extractLsb' 0 7 = a := BitVec.extractLsb'_append_eq_right
  have hhandle : (initWord a h).extractLsb' 8 8 = h :=
    (extractLsb'_append_eq_of_le (by decide : 7 ≤ 8)).trans <|
      (extractLsb'_append_eq_of_le (by decide : 1 ≤ 1)).trans BitVec.extractLsb'_append_eq_right
  rw [decodeCommand, if_pos (initWord_matches a h), haddr, hhandle]

theorem decodeCommand_setPixelWord (x y : Byte) (c : Color) :
    decodeCommand (setPixelWord x y c) = some (.setPixel x y c) := by
  have hop := opField_of_setPixel (setPixelWord_matches x y c)
  have hx : (setPixelWord x y c).extractLsb' 0 8 = x := BitVec.extractLsb'_append_eq_right
  have hy : (setPixelWord x y c).extractLsb' 8 8 = y :=
    (extractLsb'_append_eq_of_le (by decide : 8 ≤ 8)).trans BitVec.extractLsb'_append_eq_right
  have hbit : (setPixelWord x y c).extractLsb' 16 1 = bitOfColor c :=
    (extractLsb'_append_eq_of_le (by decide : 8 ≤ 16)).trans <|
      (extractLsb'_append_eq_of_le (by decide : 8 ≤ 8)).trans BitVec.extractLsb'_append_eq_right
  have hc : colorOfBit ((setPixelWord x y c).getLsbD 16) = c := by
    rw [BitVec.getLsbD_eq_extractLsb', hbit]
    cases c <;> rfl
  have hne {v : Word32} (hv : opField v ≠ 6) : ¬ (setPixelWord x y c == v) = true := fun h =>
    hv (eq_of_beq h ▸ hop)
  have hinit : ¬ matchesRow (setPixelWord x y c) Config.initMask Config.initMatch = true := fun h =>
    absurd ((opField_of_init h).symm.trans hop) (by decide)
  rw [decodeCommand, if_neg hinit, if_neg (hne (by decide)), if_neg (hne (by decide)), if_neg (hne (by decide)),
    if_neg (hne (by decide)), if_pos (setPixelWord_matches x y c), hx, hy, hc]

/-- A command word that is read as an instruction is that instruction's word: no bit of it is dropped (R69). -/
theorem encode_of_decodeCommand {w : Word32} {i : Instr} (h : decodeCommand w = some i) :
    encode i = bytesOfWord32 w := by
  unfold decodeCommand at h
  split_ifs at h with hinit hdeinit hon hoff hclear hpixel hupdate <;> cases h
  · exact congrArg bytesOfWord32 (eq_initWord hinit).symm
  · rw [eq_of_beq hdeinit]; rfl
  · rw [eq_of_beq hon]; rfl
  · rw [eq_of_beq hoff]; rfl
  · rw [eq_of_beq hclear]; rfl
  · exact congrArg bytesOfWord32 (eq_setPixelWord hpixel).symm
  · rw [eq_of_beq hupdate]; rfl

/-! ## Result words and selectors -/

theorem ioErrorWord_matches (e : IoErr) : ioErrorWord e &&& 0xFF00 = 0x0200 := by
  have hmask : (0x02#8 ++ e) &&& (0xFF#8 ++ 0#8) = 0x02#8 ++ 0#8 := by
    rw [BitVec.and_append, BitVec.and_zero]
    rfl
  exact hmask

theorem decodeResult_ioErrorWord (e : IoErr) : decodeResult (ioErrorWord e) = some (.resultIoError e) := by
  have hkind : (ioErrorWord e).extractLsb' 8 8 = 0x02#8 := BitVec.extractLsb'_append_eq_left
  have herr : (ioErrorWord e).extractLsb' 0 8 = e := BitVec.extractLsb'_append_eq_right
  have hne {v : Word16} (hv : v.extractLsb' 8 8 ≠ 0x02#8) : ¬ (ioErrorWord e == v) = true := fun h =>
    hv (eq_of_beq h ▸ hkind)
  rw [decodeResult, if_neg (hne (by decide)), if_neg (hne (by decide)),
    if_pos (beq_of_eq (ioErrorWord_matches e)), herr]

/-- A result word that is read as an instruction is that instruction's word (R70). -/
theorem encode_of_decodeResult {w : Word16} {i : Instr} (h : decodeResult w = some i) :
    encode i = bytesOfWord16 w := by
  unfold decodeResult at h
  split_ifs at h with hok hinvalid hio <;> cases h
  · rw [eq_of_beq hok]; rfl
  · rw [eq_of_beq hinvalid]; rfl
  · have hkind : w.extractLsb' 8 8 = 0x02#8 := extractLsb'_of_and_eq (eq_of_beq hio) (by decide)
    rw [encode, ioErrorWord, ← hkind]
    exact congrArg bytesOfWord16 (word16_of_bytes w)

theorem decodeResult_layer {w : Word16} {i : Instr} (h : decodeResult w = some i) : layerOf i = .hostResult := by
  unfold decodeResult at h
  split_ifs at h <;> cases h <;> rfl

/-- A byte that is read as a selector is that selector's byte (R73). -/
theorem encode_of_decodeSelector {b : Byte} {i : Instr} (h : decodeSelector b = some i) : encode i = [b] := by
  unfold decodeSelector at h
  split_ifs at h with hcmd hdata <;> cases h
  · rw [eq_of_beq hcmd]; rfl
  · rw [eq_of_beq hdata]; rfl

/-! ## Panel commands -/

/-- Where a decoder reads an instruction, its bytes and the unread ones are these bytes. -/
def ReadsBytes (bs : List Byte) (d : Decoded) : Prop :=
  ∀ i rest, d = .instr i rest → encode i ++ rest = bs

theorem readsBytes_instr {bs rest : List Byte} {i : Instr} (h : encode i ++ rest = bs) :
    ReadsBytes bs (.instr i rest) := by
  intro j rest' hj
  cases hj
  exact h

theorem readsBytes_reject (bs : List Byte) (why : Reject) : ReadsBytes bs (.reject why) := nofun

theorem readsBytes_param {cmd : Byte} {f : Byte → Instr} (hf : ∀ v, encode (f v) = [cmd, v]) (rest : List Byte) :
    ReadsBytes (cmd :: rest) (decodeParam f rest) := by
  cases rest with
  | nil => exact readsBytes_reject _ _
  | cons v more => exact readsBytes_instr (by rw [hf]; rfl)

theorem readsBytes_range {cmd : Byte} {f : Byte → Byte → Instr} (hf : ∀ a b, encode (f a b) = [cmd, a, b])
    (rest : List Byte) : ReadsBytes (cmd :: rest) (decodeRange f rest) := by
  rcases rest with _ | ⟨a, _ | ⟨b, more⟩⟩
  · exact readsBytes_reject _ _
  · exact readsBytes_reject _ _
  · exact readsBytes_instr (by rw [hf]; rfl)

/-- One row of the panel's table: the row's command byte, or the rows after it. -/
theorem readsBytes_row {op cmd : Byte} {rest : List Byte} {d e : Decoded} (hd : ReadsBytes (cmd :: rest) d)
    (he : ReadsBytes (op :: rest) e) : ReadsBytes (op :: rest) (if op == cmd then d else e) := by
  split
  · next h => exact eq_of_beq h ▸ hd
  · exact he

/-- The panel's decoder, row by row in the order of its table (R77 to R79). -/
theorem readsBytes_decodePanelOp (op : Byte) (rest : List Byte) : ReadsBytes (op :: rest) (decodePanelOp op rest) :=
  readsBytes_row (readsBytes_instr rfl) <|
  readsBytes_row (readsBytes_param (fun _ => rfl) rest) <|
  readsBytes_row (readsBytes_param (fun _ => rfl) rest) <|
  readsBytes_row (readsBytes_param (fun _ => rfl) rest) <|
  readsBytes_row (readsBytes_instr rfl) <|
  readsBytes_row (readsBytes_instr rfl) <|
  readsBytes_row (readsBytes_param (fun _ => rfl) rest) <|
  readsBytes_row (readsBytes_param (fun _ => rfl) rest) <|
  readsBytes_row (readsBytes_param (fun _ => rfl) rest) <|
  readsBytes_row (readsBytes_param (fun _ => rfl) rest) <|
  readsBytes_row (readsBytes_instr rfl) <|
  readsBytes_row (readsBytes_instr rfl) <|
  readsBytes_row (readsBytes_instr rfl) <|
  readsBytes_row (readsBytes_param (fun _ => rfl) rest) <|
  readsBytes_row (readsBytes_param (fun _ => rfl) rest) <|
  readsBytes_row (readsBytes_instr rfl) <|
  readsBytes_row (readsBytes_range (fun _ _ => rfl) rest) <|
  readsBytes_row (readsBytes_range (fun _ _ => rfl) rest) <|
  readsBytes_reject _ _

/-! ## The round trip -/

theorem wellFormed (i : Instr) : WellFormed i = true := by cases i <;> rfl

/-- Settles O1: the words with operands by their fields, every other row by its own constant. -/
theorem decodeEncodeRoundTrip : Obligations.DecodeEncodeRoundTrip := by
  intro i rest _
  cases i with
  | init a h => exact (decode_bytesOfWord32 _ _).trans (by rw [decodeCommand_initWord]; rfl)
  | setPixel x y c => exact (decode_bytesOfWord32 _ _).trans (by rw [decodeCommand_setPixelWord]; rfl)
  | resultIoError e => exact (decode_bytesOfWord16 _ _).trans (by rw [decodeResult_ioErrorWord]; rfl)
  | _ => rfl

/-- The bytes of a word put together from four bytes are those bytes. -/
theorem bytesOfWord32_append (b0 b1 b2 b3 : Byte) : bytesOfWord32 (b3 ++ b2 ++ b1 ++ b0) = [b0, b1, b2, b3] := by
  have h0 : (b3 ++ b2 ++ b1 ++ b0).extractLsb' 0 8 = b0 := BitVec.extractLsb'_append_eq_right
  have h1 : (b3 ++ b2 ++ b1 ++ b0).extractLsb' 8 8 = b1 :=
    (extractLsb'_append_eq_of_le (by decide)).trans BitVec.extractLsb'_append_eq_right
  have h2 : (b3 ++ b2 ++ b1 ++ b0).extractLsb' 16 8 = b2 :=
    (extractLsb'_append_eq_of_le (by decide)).trans <|
      (extractLsb'_append_eq_of_le (by decide)).trans BitVec.extractLsb'_append_eq_right
  have h3 : (b3 ++ b2 ++ b1 ++ b0).extractLsb' 24 8 = b3 :=
    (extractLsb'_append_eq_of_le (by decide)).trans <|
      (extractLsb'_append_eq_of_le (by decide)).trans BitVec.extractLsb'_append_eq_left
  rw [bytesOfWord32, h0, h1, h2, h3]

/-- The bytes of a word put together from two bytes are those bytes. -/
theorem bytesOfWord16_append (b0 b1 : Byte) : bytesOfWord16 (b1 ++ b0) = [b0, b1] := by
  have h0 : (b1 ++ b0).extractLsb' 0 8 = b0 := BitVec.extractLsb'_append_eq_right
  have h1 : (b1 ++ b0).extractLsb' 8 8 = b1 := BitVec.extractLsb'_append_eq_left
  rw [bytesOfWord16, h0, h1]

/-- What is decoded from a word is that word's instruction, with the bytes after the word unread. -/
theorem instr_of_decodedOr {why : Reject} {rest rest' : List Byte} {o : Option Instr} {i : Instr}
    (h : decodedOr why rest o = .instr i rest') : o = some i ∧ rest' = rest := by
  cases o with
  | none => cases h
  | some j =>
    cases h
    exact ⟨rfl, rfl⟩

/-- What a layer's decoder reads is of that layer, and its encoding and the unread bytes are the bytes. -/
theorem decode_cases {l : Layer} {bs rest : List Byte} {i : Instr} (h : decode l bs = .instr i rest) :
    layerOf i = l ∧ encode i ++ rest = bs := by
  cases l with
  | hostCommand =>
    match bs, h with
    | b0 :: b1 :: b2 :: b3 :: more, h =>
      obtain ⟨hd, rfl⟩ := instr_of_decodedOr h
      exact ⟨Machine.decodeCommand_layer hd, by rw [encode_of_decodeCommand hd, bytesOfWord32_append]; rfl⟩
  | hostResult =>
    match bs, h with
    | b0 :: b1 :: more, h =>
      obtain ⟨hd, rfl⟩ := instr_of_decodedOr h
      exact ⟨decodeResult_layer hd, by rw [encode_of_decodeResult hd, bytesOfWord16_append]; rfl⟩
  | transportSelector =>
    match bs, h with
    | b :: more, h =>
      obtain ⟨hd, rfl⟩ := instr_of_decodedOr h
      exact ⟨Machine.decodeSelector_layer hd, by rw [encode_of_decodeSelector hd]; rfl⟩
  | panelCommand =>
    match bs, h with
    | op :: more, h =>
      exact ⟨Machine.decodePanel_layer (bs := op :: more) h, readsBytes_decodePanelOp op more i rest h⟩

/-- Settles O2: `decode_cases`; every instruction is well-formed. -/
theorem decodeReadsOnlyEncodings : Obligations.DecodeReadsOnlyEncodings :=
  fun _ _ i _ h => ⟨wellFormed i, decode_cases h⟩

/-- Settles O3: the seven words, evaluated. -/
theorem writtenOutWordsDecode : Obligations.WrittenOutWordsDecode := by
  unfold Obligations.WrittenOutWordsDecode
  decide

end Sys2Proof
end

section
/-! PROOFS. Command words of no row. -/

namespace Sys2Proof.Machine

open Sys2Proof

/-- A command word that matches none of the seven (mask, match) pairs (30_encoding.md R69). -/
def NoRow (w : Word32) : Prop :=
  w &&& Config.initMask ≠ Config.initMatch ∧ w &&& Config.setPixelMask ≠ Config.setPixelMatch ∧
    w ≠ Config.deinitWord ∧ w ≠ Config.powerOnWord ∧ w ≠ Config.powerOffWord ∧ w ≠ Config.clearWord ∧
    w ≠ Config.updateDisplayWord

/-- Such a word is no instruction. -/
theorem decodeCommand_of_noRow {w : Word32} (h : NoRow w) : decodeCommand w = none := by
  obtain ⟨hinit, hpixel, hdeinit, hon, hoff, hclear, hupdate⟩ := h
  have hne {u v : Word32} (huv : u ≠ v) : ¬ (u == v) = true := fun h => huv (eq_of_beq h)
  rw [decodeCommand, matchesRow, matchesRow, if_neg (hne hinit), if_neg (hne hdeinit), if_neg (hne hon),
    if_neg (hne hoff), if_neg (hne hclear), if_neg (hne hpixel), if_neg (hne hupdate)]

/-- A row has its `op` and, under its mask, no bit set beside it: a word with another `op`, or with a reserved bit set,
is of no row. -/
theorem noRow_of_op {w : Word32} (hinit : opField w = 1 → w &&& 0x0FFF0080 ≠ 0)
    (hpixel : opField w = 6 → w &&& 0x0FFE0000 ≠ 0)
    (hplain : opField w = 2 ∨ opField w = 3 ∨ opField w = 4 ∨ opField w = 5 ∨ opField w = 7 →
      w &&& 0x0FFFFFFF ≠ 0) : NoRow w := by
  have hconst {v : Word32} (hv : opField v = 2 ∨ opField v = 3 ∨ opField v = 4 ∨ opField v = 5 ∨ opField v = 7)
      (hres : v &&& 0x0FFFFFFF = 0) : w ≠ v := by
    rintro rfl
    exact hplain hv hres
  refine ⟨fun h => hinit (opField_of_init (beq_of_eq h)) ?_, fun h => hpixel (opField_of_setPixel (beq_of_eq h)) ?_,
    hconst (by decide) (by decide), hconst (by decide) (by decide), hconst (by decide) (by decide),
    hconst (by decide) (by decide), hconst (by decide) (by decide)⟩
  · calc w &&& 0x0FFF0080 = (w &&& Config.initMask) &&& 0x0FFF0080 := by rw [BitVec.and_assoc]; rfl
      _ = 0 := by rw [h]; rfl
  · calc w &&& 0x0FFE0000 = (w &&& Config.setPixelMask) &&& 0x0FFE0000 := by rw [BitVec.and_assoc]; rfl
      _ = 0 := by rw [h]; rfl

/-- A step that takes a command word of no row: `InvalidArgument` and nothing else. -/
theorem step_noRow {s : State} {w : Word32} {rest : List Offer} (hrst : s.rst = false) (hs : Ready s)
    (hp : s.port = .command w :: rest) (h : NoRow w) :
    step s = .next (onlyResult .invalidArgument (setPort rest s)) := by
  have hf : fetch s = .handled (.next (finish .invalidArgument (setPort rest s))) := by
    simp [fetch, hp, decodeCommand_of_noRow h, instrOr, illegalCommand]
  rw [step_idle hrst hs.1, stepIdle, hf, finish_eq_onlyResult (s := setPort rest s) _ hs]

/-- Settles O4: `step_noRow`, and `noRow_of_op` for each class of words. -/
theorem illegalWordGivesInvalidArgument : Obligations.IllegalWordGivesInvalidArgument := by
  refine ⟨fun s w rest => step_noRow, fun w hw => ?_, fun w hop hres => ?_, fun w hop hres => ?_,
    fun w hop hres => ?_, by decide⟩
  · change opField w = 0 ∨ 8 ≤ (opField w).toNat at hw
    refine noRow_of_op (fun h => ?_) (fun h => ?_) (fun h => ?_)
    · simp [h] at hw
    · simp [h] at hw
    · rcases h with h | h | h | h | h <;> simp [h] at hw
  · change opField w = 1 at hop
    exact noRow_of_op (fun _ => hres) (fun h => by simp [hop] at h) (fun h => by simp [hop] at h)
  · change opField w = 6 at hop
    exact noRow_of_op (fun h => by simp [hop] at h) (fun _ => hres) (fun h => by simp [hop] at h)
  · change opField w = 2 ∨ opField w = 3 ∨ opField w = 4 ∨ opField w = 5 ∨ opField w = 7 at hop
    exact noRow_of_op (fun h => by simp [h] at hop) (fun h => by simp [h] at hop) (fun _ => hres)

end Sys2Proof.Machine
end

section
/-! PROOFS. What a step takes from its ports, the result word, and what a running operation holds off. -/

namespace Sys2Proof.Machine

open Sys2Proof

/-! ## What a step takes from its ports -/

/-- What is decoded from a word alone leaves no byte. -/
theorem eq_some_of_decodedOr {why : Reject} {o : Option Instr} {i : Instr} (h : decodedOr why [] o = .instr i []) :
    o = some i := (instr_of_decodedOr h).1

theorem step_handled {s t : State} (hrst : s.rst = false) (hq : s.seq = .idle) (h : fetch s = .handled (.next t)) :
    step s = .next t := by rw [step_idle hrst hq, stepIdle, h]

theorem step_instr {s t : State} {i : Instr} (hrst : s.rst = false) (hq : s.seq = .idle) (h : fetch s = .instr i t) :
    step s = exec i t := by rw [step_idle hrst hq, stepIdle_instr h]

/-- Settles O8: what `fetch` gives for each offer. -/
theorem stepRunsDecodedInstruction : Obligations.StepRunsDecodedInstruction := by
  intro s i rest hrst hq
  refine ⟨fun w hp hd => ?_, fun w hp hd => ?_, fun b hp hd => ?_, fun bytes after hp hc hpend hd => ?_,
    fun b more hp hc => ?_, fun b more hp hc hbyte => ?_, fun hp => ?_, fun hp => ?_⟩
  · have hdec : decodeCommand w = some i := eq_some_of_decodedOr ((decode_bytesOfWord32 w []).symm.trans hd)
    exact step_instr hrst hq (by simp [fetch, hp, hdec, instrOr])
  · have hdec : decodeResult w = some i := eq_some_of_decodedOr ((decode_bytesOfWord16 w []).symm.trans hd)
    exact step_instr hrst hq (by simp [fetch, hp, hdec, instrOr])
  · have hdec : decodeSelector b = some i := eq_some_of_decodedOr hd
    exact step_instr hrst hq (by simp [fetch, hp, hdec, instrOr])
  · change decodePanel bytes = .instr i after at hd
    cases bytes with
    | nil => cases hd
    | cons b more => exact step_instr hrst hq (by simp [fetch, hp, fetchBus, hc, hpend, hd])
  · exact step_handled hrst hq (by simp [fetch, hp, fetchBus, hc, setPanel, setPort])
  · have hfeed : fetch s = feedCommand b more rest s := by
      simp only [fetch, hp, fetchBus, hc]
      rcases hbyte with hpend | ⟨why, hd⟩
      · split
        · next h => exact absurd h hpend
        · rfl
      · change decodePanel (b :: more) = .reject why at hd
        simp only [hd]
        split <;> rfl
    exact step_handled hrst hq hfeed
  · exact step_handled hrst hq (by simp [fetch, hp, setPort])
  · rw [step_idle hrst hq, stepIdle, fetch, hp]

/-! ## The result word and the status outputs -/

/-- The fields of a result word (30_encoding.md R70). -/
theorem Result.word_reserved (r : Result) : r.word.extractLsb' 10 6 = 0 :=
  (BitVec.extractLsb'_append_eq_of_le (by decide : 8 ≤ 10)).trans BitVec.extractLsb'_append_eq_left

theorem Result.word_kind (r : Result) : r.word.extractLsb' 8 2 = r.kind :=
  (BitVec.extractLsb'_append_eq_of_le (by decide : 8 ≤ 8)).trans BitVec.extractLsb'_append_eq_right

theorem Result.word_ioErr (r : Result) : r.word.extractLsb' 0 8 = r.ioErr := BitVec.extractLsb'_append_eq_right

theorem Result.kind_ne_three (r : Result) : r.kind ≠ 3 := by
  cases r with
  | ok => decide
  | invalidArgument => decide
  | ioError e => exact (by decide : (2 : BitVec 2) ≠ 3)

/-- The result word of an error is the word of its row. -/
theorem Result.word_ioError_eq_ioErrorWord (e : IoErr) : Result.word (.ioError e) = ioErrorWord e :=
  congrArg (· ++ e) (by decide : 0#6 ++ 2#2 = 0x02#8)

/-- The two bits of S5 (R29). -/
theorem ofBool_append_getLsbD_one : ∀ b c : Bool, (BitVec.ofBool b ++ BitVec.ofBool c).getLsbD 1 = b := by decide

theorem ofBool_append_getLsbD_zero : ∀ b c : Bool, (BitVec.ofBool b ++ BitVec.ofBool c).getLsbD 0 = c := by decide

theorem statusBusy_iff (s : State) : statusBusy s = true ↔ s.seq ≠ .idle := by
  rw [statusBusy]
  cases s.seq with
  | idle => simp [Seq.isIdle]
  | run op k => simp [Seq.isIdle]

/-- No event from outside but `rst` writes a register of the block (10_state.md R29, 00_scope.md R12). -/
theorem applyInput_registers {e : Input} (s : State) (he : ∀ b, e ≠ .rst b) :
    (applyInput e s).seq = s.seq ∧ (applyInput e s).lastResult = s.lastResult ∧ SameContext s (applyInput e s) := by
  cases e with
  | rst b => exact absurd rfl (he b)
  | answer a => simp [applyInput, SameContext]
  | command w => exact ⟨rfl, rfl, rfl, rfl, rfl, rfl, rfl⟩
  | select sel => exact ⟨rfl, rfl, rfl, rfl, rfl, rfl, rfl⟩
  | bus bytes => exact ⟨rfl, rfl, rfl, rfl, rfl, rfl, rfl⟩
  | delayDone => exact ⟨rfl, rfl, rfl, rfl, rfl, rfl, rfl⟩
  | pins p => exact ⟨rfl, rfl, rfl, rfl, rfl, rfl, rfl⟩
  | panelPowerCycle => exact ⟨rfl, rfl, rfl, rfl, rfl, rfl, rfl⟩

/-- Settles O5: the fields of the result word, and that the status outputs are of registers no such event writes. -/
theorem resultWordAndStatusOutputs : Obligations.ResultWordAndStatusOutputs := by
  refine ⟨fun s e => ⟨rfl, rfl, Result.word_ioError e, s.lastResult.word_reserved, s.lastResult.word_kind,
      s.lastResult.word_ioErr, s.lastResult.kind_ne_three, ?_⟩,
    fun s => ⟨statusBusy_iff s, (Bool.not_not _).symm, rfl, rfl, rfl, rfl, ?_, ?_⟩, fun s e he => ?_⟩
  · rw [Result.word_ioError_eq_ioErrorWord, decodeResult_ioErrorWord]
  · exact ofBool_append_getLsbD_one s.tmBound s.tpBound
  · exact ofBool_append_getLsbD_zero s.tmBound s.tpBound
  · obtain ⟨hq, hres, hinit, haddr, -, htp, htm⟩ := applyInput_registers s he
    simp [statusBusy, statusInitialized, statusResultKind, statusResultIoErr, statusBusAddr, statusBound, hq, hres,
      hinit, haddr, htp, htm]

/-- Settles O11: a running operation holds off another, and no step of the sequencer takes what is offered. -/
theorem busyHoldsOffTheHost : Obligations.BusyHoldsOffTheHost := by
  refine fun s op k hq => ⟨fun i hi => ?_, fun t hrst h => ?_⟩
  · obtain ⟨op', hop⟩ := Option.isSome_iff_exists.mp ((operationOf_isSome_iff i).2 hi)
    rw [exec_host hop, runOperation_busy hq]
  · obtain ⟨-, -, -, hport⟩ := seqStep_sameInputs ((step_run hrst hq).symm.trans h)
    exact hport

/-- Settles O48: each is `setPanel` of its own setting. -/
theorem panelSettingsAreSet : Obligations.PanelSettingsAreSet := fun _ _ =>
  ⟨rfl, rfl, rfl, rfl, rfl, rfl, rfl, rfl, rfl, rfl, rfl, rfl, rfl, rfl⟩

end Sys2Proof.Machine
end

section
/-! PROOFS. What an operation appends to the results and to `T`. -/

namespace Sys2Proof.Machine

open Sys2Proof

/-! ## One result for each operation -/

/-- Since `s` an operation has ended and driven one result word, or it runs and has driven none (60_exceptions.md R160,
R177). -/
def OneResultSince (s t : State) : Prop :=
  (t.seq = .idle ∧ t.request = none ∧ t.responses = s.responses ++ [t.lastResult.word]) ∨
  (t.seq ≠ .idle ∧ t.responses = s.responses ∧ t.lastResult = s.lastResult)

theorem oneResultSince_finish {s u : State} (r : Result) (h : u.responses = s.responses) :
    OneResultSince s (finish r u) := .inl ⟨rfl, rfl, by simp [h]⟩

theorem oneResultSince_completeAction {s u : State} (op : Operation) (k : Nat) (h : u.responses = s.responses)
    (hl : u.lastResult = s.lastResult) : OneResultSince s (completeAction op k u) := by
  rcases Nat.lt_or_ge (k + 1) (actions u.params op).length with hk | hk
  · rw [completeAction_more u hk]
    exact .inr ⟨by simp, h, hl⟩
  · rw [completeAction_last u hk]
    exact oneResultSince_finish .ok (by simpa using h)

theorem oneResultSince_settle {s u : State} (op : Operation) (k : Nat) (r : Request) (hq : u.seq ≠ .idle)
    (h : u.responses = s.responses) (hl : u.lastResult = s.lastResult) : OneResultSince s (settle op k r u) := by
  rcases settle_cases op k r u with ⟨h', -⟩ | ⟨_, _, _, -, -, h'⟩ | ⟨_, _, _, _, -, -, h'⟩ | ⟨_, _, -, -, h'⟩ <;>
    rw [h']
  · exact .inr ⟨hq, h, hl⟩
  · exact oneResultSince_completeAction op k h hl
  · exact oneResultSince_finish _ h
  · exact oneResultSince_completeAction op k h hl

/-- A step of the sequencer drives a result word exactly where it ends the operation. -/
theorem seqStep_oneResultSince {s : State} (u t : State) (hu : OneResultSince s u) (h : seqStep u = .next t) :
    OneResultSince s t := by
  rcases hu with ⟨hq, hr, hresp⟩ | ⟨hq, hresp, hl⟩
  · cases (seqStep_idle hq).symm.trans h
    exact .inl ⟨hq, hr, hresp⟩
  · rcases seqStep_cases h with ⟨hi, -⟩ | ⟨op, k, r, -, -, rfl⟩ | ⟨op, k, a, -, -, -, ha⟩
    · exact absurd hi hq
    · exact oneResultSince_settle op k r hq hresp hl
    · rcases startAction_cases ha with ⟨_, _, -, rfl⟩ | ⟨-, rfl⟩ | ⟨-, rfl⟩ | ⟨_, _, _, _, -, -, -, rfl⟩ | ⟨r, -, rfl⟩
      · exact oneResultSince_completeAction op k hresp hl
      · exact oneResultSince_completeAction op k hresp hl
      · exact oneResultSince_completeAction op k hresp hl
      · exact oneResultSince_completeAction op k hresp hl
      · exact oneResultSince_settle (u := issue r u) op k r hq hresp hl

/-- From action `k`, with as many steps as there are actions left, `drive` reaches the end or a request not answered. -/
theorem drive_settled {op : Operation} {n k : Nat} {s t : State} (hq : s.seq = .run op k)
    (hk : k < (actions s.params op).length) (hn : (actions s.params op).length ≤ k + n) (h : drive n s = .next t) :
    settled t = true := by
  induction n generalizing k s with
  | zero => omega
  | succ n ih =>
    simp only [drive] at h
    split at h
    · next u hu =>
      split_ifs at h with hset
      · cases h
        exact hset
      · rcases seqStep_progress hq hu with ⟨hq', hk', -⟩ | ⟨-, hr'⟩ | ⟨hq', -⟩
        · exact ih hq' hk' (by rw [seqStep_params hu]; omega) h
        · exact absurd (by simp [settled, Option.isSome_iff_ne_none, hr']) hset
        · exact absurd (by simp [settled, hq', Seq.isIdle]) hset
    · cases h
    · cases h

/-- Settles O35: a check that fails ends the operation; else `drive` runs it up to its end or a request, and every step
keeps the count of results. -/
theorem oneResultForEachOperation : Obligations.OneResultForEachOperation := by
  rintro s t i hi ⟨hq, hr⟩ h
  obtain ⟨op, hop⟩ := Option.isSome_iff_exists.mp ((operationOf_isSome_iff i).2 hi)
  rw [exec_host hop] at h
  cases hargs : argsOk op s with
  | false =>
    cases (runOperation_invalid hq hargs).symm.trans h
    exact .inl ⟨rfl, rfl, rfl⟩
  | true =>
    rw [runOperation_accepted hq hr hargs] at h
    have hset := drive_settled (s := setSeq (.run op 0) s) rfl (actions_length_pos s.params op) (by simp) h
    rcases drive_keeps seqStep_oneResultSince h (.inr ⟨by simp, rfl, rfl⟩) with hend | ⟨hq', hresp, hl⟩
    · exact .inl hend
    · refine .inr ⟨hq', fun hr' => hq' ?_, hresp, hl⟩
      cases hq'' : t.seq with
      | idle => rfl
      | run op' k => simp [settled, Seq.isIdle, hq'', hr'] at hset

/-! ## `T` only grows -/

/-- Since `s` nothing was taken from `T`, and what was appended are transactions of a legal length (30_encoding.md
R74). -/
def LegalTraceSince (s t : State) : Prop := ∃ new, t.trace = s.trace ++ new ∧ ∀ ev ∈ new, ev.lengthOk = true

theorem legalTraceSince_of_eq {s t : State} (h : t.trace = s.trace) : LegalTraceSince s t :=
  ⟨[], by simp [h], nofun⟩

theorem LegalTraceSince.trans {s t u : State} (hst : LegalTraceSince s t) (htu : LegalTraceSince t u) :
    LegalTraceSince s u := by
  obtain ⟨new, hnew, hok⟩ := hst
  obtain ⟨more, hmore, hok'⟩ := htu
  refine ⟨new ++ more, by rw [hmore, hnew, List.append_assoc], fun ev hev => ?_⟩
  exact (List.mem_append.mp hev).elim (hok ev) (hok' ev)

@[simp] theorem settle_trace (op : Operation) (k : Nat) (r : Request) (s : State) :
    (settle op k r s).trace = s.trace := by
  rcases settle_cases op k r s with ⟨h, -⟩ | ⟨_, _, _, -, -, h⟩ | ⟨_, _, _, _, -, -, h⟩ | ⟨_, _, -, -, h⟩ <;>
    simp [h]

/-- A step of the sequencer appends the transaction it issues. -/
theorem seqStep_legalTraceSince {s t : State} (h : seqStep s = .next t) : LegalTraceSince s t := by
  rcases seqStep_cases h with ⟨-, rfl⟩ | ⟨op, k, r, -, -, rfl⟩ | ⟨op, k, a, -, -, -, ha⟩
  · exact legalTraceSince_of_eq rfl
  · exact legalTraceSince_of_eq (settle_trace op k r s)
  · rcases startAction_cases ha with ⟨_, _, -, rfl⟩ | ⟨-, rfl⟩ | ⟨-, rfl⟩ | ⟨_, _, _, _, -, -, -, rfl⟩ | ⟨r, hr, rfl⟩
    · exact legalTraceSince_of_eq (by simp)
    · exact legalTraceSince_of_eq (by simp)
    · exact legalTraceSince_of_eq (by simp)
    · exact legalTraceSince_of_eq (by simp)
    · exact ⟨[eventOf r s], by simp, by simpa using lengthOk_of_requestOf hr⟩

theorem accept_trace (op : Operation) (s : State) : (accept op s).trace = s.trace := by
  unfold accept
  split <;> rfl

theorem exec_legalTraceSince {i : Instr} {s t : State} (h : exec i s = .next t) : LegalTraceSince s t := by
  cases hl : layerOf i with
  | hostCommand =>
    obtain ⟨op, hop⟩ := Option.isSome_iff_exists.mp ((operationOf_isSome_iff i).2 hl)
    rw [exec_host hop] at h
    exact runOperation_keeps (P := LegalTraceSince s) (fun _ _ hu hv => hu.trans (seqStep_legalTraceSince hv)) h
      (fun _ => legalTraceSince_of_eq (accept_trace op s)) (legalTraceSince_of_eq rfl)
  | hostResult =>
    obtain ⟨r, hr⟩ := exec_result hl s
    cases hr.symm.trans h
    exact legalTraceSince_of_eq rfl
  | transportSelector =>
    obtain ⟨sel, hsel⟩ := exec_selector hl s
    cases hsel.symm.trans h
    exact legalTraceSince_of_eq rfl
  | panelCommand =>
    cases (exec_panel hl s).symm.trans h
    exact legalTraceSince_of_eq rfl

theorem step_legalTraceSince {s t : State} (h : step s = .next t) : LegalTraceSince s t := by
  rcases step_cases h with ⟨-, rfl⟩ | ⟨-, -, hseq⟩ |
    ⟨-, -, rfl | ⟨i, p, -, hx⟩ | ⟨p, rfl⟩ | ⟨p, rfl⟩ | ⟨b, p, rfl⟩ | ⟨b, p, rfl⟩⟩
  · exact legalTraceSince_of_eq (applyReset_trace s)
  · exact seqStep_legalTraceSince hseq
  · exact legalTraceSince_of_eq rfl
  · exact (legalTraceSince_of_eq (setPort_trace s p)).trans (exec_legalTraceSince hx)
  · exact legalTraceSince_of_eq rfl
  · exact legalTraceSince_of_eq rfl
  · exact legalTraceSince_of_eq rfl
  · exact legalTraceSince_of_eq rfl

/-- The two lengths of R74, by channel. -/
theorem Event.lengthOk_iff (ev : Event) :
    ev.lengthOk = true ↔
      (ev.isOn .cmd = true → ev.bytes.length = 1) ∧ (ev.isOn .data = true → ev.bytes.length = 128) := by
  rcases ev with ⟨hd, addr, _ | _, bytes⟩ | ms <;> simp [Event.lengthOk, Event.isOn, Event.bytes]

/-- Settles O39: `step_legalTraceSince`. -/
theorem transactionLengths : Obligations.TransactionLengths := by
  intro s t h
  obtain ⟨new, hnew, hok⟩ := step_legalTraceSince h
  exact ⟨new, hnew, fun ev hev => ev.lengthOk_iff.1 (hok ev hev)⟩

end Sys2Proof.Machine
end

section
/-! PROOFS. What the panel does with whole commands, with a page of pixel data, and with a whole bring-up. -/

namespace Sys2Proof.Machine

open Sys2Proof

/-! ## Whole commands, byte by byte -/

/-- A panel command is one byte, or two of which the first is held, or three of which the first two are held
(30_encoding.md R76, R77). -/
theorem encode_panel_cases {i : Instr} (h : layerOf i = .panelCommand) :
    (∃ op, encode i = [op]) ∨
    (∃ op v, encode i = [op, v] ∧ decodePanel [op] = .reject .truncated) ∨
    (∃ op a b, encode i = [op, a, b] ∧ decodePanel [op] = .reject .truncated ∧
      decodePanel [op, a] = .reject .truncated) := by
  cases i with
  | panelDisplayOff | panelSegRemap | panelComScanRev | panelResumeRam | panelNormalPolarity | panelScrollOff
  | panelDisplayOn => exact .inl ⟨_, rfl⟩
  | panelClockDiv v | panelMuxRatio v | panelDisplayOffset v | panelComPins v | panelContrast v | panelPrecharge v
  | panelVcomh v | panelAddrMode v | panelChargePump v => exact .inr (.inl ⟨_, v, rfl, rfl⟩)
  | panelSetColRange a b | panelSetPageRange a b => exact .inr (.inr ⟨_, a, b, rfl, rfl, rfl⟩)
  | _ => cases h

theorem Panel.pending_nil_eq {q : Panel} (h : q.pending = []) : { q with pending := [] } = q := by
  cases q
  cases h
  rfl

/-- A panel with no unfinished command that receives the bytes of a command does what the command does (R181). -/
theorem Panel.foldl_cmdByte_encode {i : Instr} {q : Panel} (hi : layerOf i = .panelCommand) (hq : q.pending = []) :
    (encode i).foldl Panel.cmdByte q = Panel.effect i q := by
  have hdec : decode .panelCommand (encode i ++ []) = .instr i [] :=
    hi ▸ decodeEncodeRoundTrip i [] (wellFormed i)
  rw [List.append_nil] at hdec
  rw [← Panel.pending_nil_eq hq]
  rcases encode_panel_cases hi with ⟨op, he⟩ | ⟨op, v, he, h1⟩ | ⟨op, a, b, he, h1, h2⟩ <;> rw [he] at hdec ⊢
  · exact Panel.received_instr (bs := [op]) _ hdec
  · have hheld := Panel.received_truncated { q with pending := [] } h1
    simp only [List.foldl_cons, List.foldl_nil, Panel.cmdByte, List.nil_append, hheld]
    exact Panel.received_instr (bs := [op, v]) _ hdec
  · have hheld := Panel.received_truncated { q with pending := [] } h1
    have hheld' := Panel.received_truncated { q with pending := [op] } h2
    simp only [List.foldl_cons, List.foldl_nil, Panel.cmdByte, List.nil_append, List.cons_append, hheld, hheld']
    exact Panel.received_instr (bs := [op, a, b]) _ hdec

/-- The bytes of a list of commands, one command after the other. -/
theorem Panel.take_cmd_encode {is : List Instr} {q : Panel} (his : ∀ i ∈ is, layerOf i = .panelCommand)
    (hq : q.pending = []) :
    q.take .cmd (is.flatMap encode) = is.foldl (fun q i => Panel.effect i q) q := by
  induction is generalizing q with
  | nil => rfl
  | cons i more ih =>
    have hi := his i List.mem_cons_self
    have hmore := ih (q := Panel.effect i q) (fun j hj => his j (List.mem_cons_of_mem i hj))
      (by rw [Panel.effect_pending, hq])
    rw [List.flatMap_cons, List.foldl_cons, ← hmore, ← Panel.foldl_cmdByte_encode hi hq]
    exact List.foldl_append

/-! ## A page of pixel data -/

/-- The cursor-set pair of page `p` sets both ranges and puts the cursor at the start of the page (R77). -/
theorem Panel.take_cursorSet {q : Panel} (p : Nat) (hq : q.pending = []) :
    q.take .cmd (Config.cursorSet Config.params p) =
      (q.setColRange 0x00 0x7F).setPageRange (BitVec.ofNat 8 p) 0x07 :=
  Panel.take_cmd_encode (is := [.panelSetColRange 0x00 0x7F, .panelSetPageRange (BitVec.ofNat 8 p) 0x07])
    (by simp [layerOf]) hq

@[simp] theorem Panel.dataByte_addrMode (q : Panel) (v : Byte) : (q.dataByte v).addrMode = q.addrMode := by
  unfold Panel.dataByte Panel.store Panel.lostCursor
  split_ifs <;> simp

@[simp] theorem Panel.dataByte_on (q : Panel) (v : Byte) : (q.dataByte v).on = q.on := by
  unfold Panel.dataByte Panel.store Panel.lostCursor
  split_ifs <;> simp

/-- Data bytes leave the unfinished command, the addressing mode and the on bit. -/
theorem Panel.take_data_settings (bytes : List Byte) (q : Panel) :
    (q.take .data bytes).pending = q.pending ∧ (q.take .data bytes).addrMode = q.addrMode ∧
      (q.take .data bytes).on = q.on := by
  induction bytes generalizing q with
  | nil => exact ⟨rfl, rfl, rfl⟩
  | cons v more ih =>
    obtain ⟨hpend, hmode, hon⟩ := ih (q.dataByte v)
    exact ⟨hpend.trans (q.dataByte_pending v), hmode.trans (q.dataByte_addrMode v), hon.trans (q.dataByte_on v)⟩

/-- The panel is in horizontal addressing mode, its cursor at column `c` of page `p`, and its column range ends with
the last column (R181). -/
structure Panel.WritesAt (q : Panel) (p c : Nat) : Prop where
  mode : q.addrMode = Config.addrModeHorizontal
  page : q.page.toNat = p
  col : q.col.toNat = c
  colHi : q.colHi.toNat = 127

/-- A data byte is stored at the cursor. -/
theorem Panel.WritesAt.dataByte {q : Panel} {p c : Nat} (h : q.WritesAt p c) (hp : p < 8) (hc : c < 128) (v : Byte) :
    q.dataByte v = Panel.advance { q with ram := Memory.insert q.ram (linear p c) v } := by
  have hon : q.cursorOnPanel = true := by
    rw [Panel.cursorOnPanel, h.page, h.col]
    exact (Bool.and_eq_true _ _).mpr ⟨decide_eq_true hp, decide_eq_true hc⟩
  rw [Panel.dataByte, if_pos h.mode, Panel.store, if_pos hon, Panel.cursor, h.page, h.col]

/-- Before the last column a data byte moves the cursor to the next one. -/
theorem Panel.WritesAt.next {q : Panel} {p c : Nat} (h : q.WritesAt p c) (hp : p < 8) (hc : c < 127) (v : Byte) :
    (q.dataByte v).WritesAt p (c + 1) := by
  have hcol := h.col
  have hne : q.col ≠ q.colHi := fun he => by
    have := h.colHi
    rw [← he, hcol] at this
    omega
  rw [h.dataByte hp (by omega), Panel.advance, if_neg hne]
  refine ⟨h.mode, h.page, ?_, h.colHi⟩
  show (q.col + 1).toNat = c + 1
  rw [BitVec.toNat_add, hcol]
  exact Nat.mod_eq_of_lt (show c + 1 < 256 by omega)

theorem Panel.WritesAt.byteAt_dataByte {q : Panel} {p c : Nat} (h : q.WritesAt p c) (hp : p < 8) (hc : c < 128)
    (v : Byte) {p' c' : Nat} (hc' : c' < 128) :
    (q.dataByte v).byteAt p' c' = if p' = p ∧ c' = c then some v else q.byteAt p' c' := by
  rw [h.dataByte hp hc, Panel.byteAt, Panel.advance_ram]
  split
  · next heq => rw [heq.1, heq.2, Memory.lookup_insert_same]
  · next hne => exact Memory.lookup_insert_ne _ _ fun heq => hne ((linear_inj hc' hc).1 heq)

/-- Data bytes that fit in the rest of a page's row fill it from the cursor on, and change nothing else. -/
theorem Panel.WritesAt.byteAt_take_data {bytes : List Byte} {q : Panel} {p c : Nat} (h : q.WritesAt p c) (hp : p < 8)
    (hc : c + bytes.length ≤ 128) {p' c' : Nat} (hc' : c' < 128) :
    (q.take .data bytes).byteAt p' c' =
      if p' = p ∧ c ≤ c' ∧ c' < c + bytes.length then bytes[c' - c]? else q.byteAt p' c' := by
  induction bytes generalizing q c with
  | nil =>
    rw [if_neg (by simp only [List.length_nil]; omega)]
    rfl
  | cons v more ih =>
    rw [List.length_cons] at hc ⊢
    have hbyte := h.byteAt_dataByte hp (by omega) v (p' := p') hc'
    have hmore : ((q.dataByte v).take .data more).byteAt p' c' =
        if p' = p ∧ c + 1 ≤ c' ∧ c' < c + 1 + more.length then more[c' - (c + 1)]?
        else (q.dataByte v).byteAt p' c' := by
      rcases more with _ | ⟨u, more⟩
      · rw [if_neg (by simp only [List.length_nil]; omega)]
        rfl
      · rw [List.length_cons] at hc
        exact ih (h.next hp (by omega) v) (by rw [List.length_cons]; omega)
    show ((q.dataByte v).take .data more).byteAt p' c' = _
    rw [hmore, hbyte]
    by_cases hcell : p' = p ∧ c' = c
    · rw [if_neg (by omega), if_pos hcell, if_pos (by omega), hcell.2, Nat.sub_self, List.getElem?_cons_zero]
    · rw [if_neg hcell]
      by_cases hrow : p' = p ∧ c + 1 ≤ c' ∧ c' < c + 1 + more.length
      · rw [if_pos hrow, if_pos (by omega), show c' - c = c' - (c + 1) + 1 by omega, List.getElem?_cons_succ]
      · rw [if_neg hrow, if_neg (by omega)]

/-- Settles O53: the pair puts the cursor at the start of the page, whose row the burst then fills. -/
theorem cursorSetThenBurstShowsThePage : Obligations.CursorSetThenBurstShowsThePage := by
  intro q m p hp hmode hpend
  rw [Panel.take_cursorSet p hpend]
  have hpage : (BitVec.ofNat 8 p).toNat = p := by rw [BitVec.toNat_ofNat]; omega
  have hat : ((q.setColRange 0x00 0x7F).setPageRange (BitVec.ofNat 8 p) 0x07).WritesAt p 0 :=
    ⟨hmode, hpage, rfl, rfl⟩
  have hrow {p' c : Nat} (hc : c < 128) :=
    hat.byteAt_take_data hp (bytes := pageRow m p) (by rw [pageRow_length]) (p' := p') hc
  obtain ⟨hpend', hmode', hon'⟩ :=
    Panel.take_data_settings (pageRow m p) ((q.setColRange 0x00 0x7F).setPageRange (BitVec.ofNat 8 p) 0x07)
  refine ⟨fun c hc => ?_, fun p' c hc hne => ?_, hpend'.trans hpend, hmode'.trans hmode, hon'⟩
  · rw [hrow hc, pageRow_length, if_pos (by omega), Nat.sub_zero, pageRow_getElem? m p hc]
    rfl
  · rw [hrow hc, if_neg fun h => hne h.1]
    rfl

/-! ## What an operation that sends only commands leaves on the panel -/

/-- The bytes of a list of actions on the command channel (30_encoding.md R75). -/
def commandBytes (acts : List Action) : List Byte :=
  acts.flatMap fun
    | .send b => [b]
    | _ => []

/-- While `op` runs the panel has taken the command bytes of the actions before the present one; when it has ended with
`OK`, those of all its actions (R49). -/
def TakesCommandsOf (op : Operation) (q : Panel) (s : State) : Prop :=
  (∃ k a, s.seq = .run op k ∧ (actions s.params op)[k]? = some a ∧ (s.request = none ∨ s.request = requestOf a s) ∧
    s.panel = q.take .cmd (commandBytes ((actions s.params op).take k))) ∨
  (s.seq = .idle ∧ (s.lastResult = .ok → s.panel = q.take .cmd (commandBytes (actions s.params op))))

theorem commandBytes_take_succ {acts : List Action} {k : Nat} {a : Action} (h : acts[k]? = some a) :
    commandBytes (acts.take (k + 1)) = commandBytes (acts.take k) ++ commandBytes [a] := by
  rw [List.take_add_one, h]
  exact List.flatMap_append

theorem Panel.take_cmd_append (q : Panel) (bs bs' : List Byte) :
    q.take .cmd (bs ++ bs') = (q.take .cmd bs).take .cmd bs' := List.foldl_append

/-- Completing an action whose bytes the panel has taken. -/
theorem takesCommandsOf_completeAction {op : Operation} {k : Nat} {q : Panel} {u : State}
    (hr : u.request = none)
    (hpanel : u.panel = q.take .cmd (commandBytes ((actions u.params op).take (k + 1)))) :
    TakesCommandsOf op q (completeAction op k u) := by
  rcases Nat.lt_or_ge (k + 1) (actions u.params op).length with hk' | hk'
  · rw [completeAction_more u hk']
    exact .inl ⟨k + 1, _, rfl, List.getElem?_eq_getElem hk', .inl hr, hpanel⟩
  · rw [completeAction_last u hk']
    rw [List.take_of_length_le hk'] at hpanel
    exact .inr ⟨rfl, fun _ => by simpa using hpanel⟩

/-- Completing an action that sends nothing. -/
theorem takesCommandsOf_silent {op : Operation} {k : Nat} {a : Action} {q : Panel} {u : State}
    (ha : (actions u.params op)[k]? = some a) (hsilent : commandBytes [a] = []) (hr : u.request = none)
    (hpanel : u.panel = q.take .cmd (commandBytes ((actions u.params op).take k))) :
    TakesCommandsOf op q (completeAction op k u) :=
  takesCommandsOf_completeAction hr (by rw [commandBytes_take_succ ha, hsilent, List.append_nil, hpanel])

/-- Taking the answer to the request of an action that is no burst. -/
theorem takesCommandsOf_settle {op : Operation} {k : Nat} {a : Action} {r : Request} {q : Panel} {u : State}
    (hq : u.seq = .run op k) (ha : (actions u.params op)[k]? = some a) (hburst : ∀ n, a ≠ .burst n)
    (hreq : requestOf a u = some r) (hr : u.request = some r)
    (hpanel : u.panel = q.take .cmd (commandBytes ((actions u.params op).take k))) :
    TakesCommandsOf op q (settle op k r u) := by
  have hsucc := commandBytes_take_succ ha
  rcases settle_cases op k r u with
    ⟨h, -⟩ | ⟨sel, bytes, rest, rfl, -, h⟩ | ⟨_, _, _, _, -, -, h⟩ | ⟨ms, n, rfl, -, h⟩ <;> rw [h]
  · exact .inl ⟨k, a, hq, ha, .inr (hr.trans hreq.symm), hpanel⟩
  · refine takesCommandsOf_completeAction rfl ?_
    cases a <;> cases hreq
    · rw [deliver_params, takeAnswer_params, hsucc, Panel.take_cmd_append, ← hpanel]
      rfl
    · exact absurd rfl (hburst _)
  · exact .inr ⟨rfl, nofun⟩
  · refine takesCommandsOf_completeAction rfl ?_
    cases a <;> cases hreq
    rw [takeDelay_params, hsucc, Panel.take_cmd_append, ← hpanel]
    rfl

/-- Every step of an operation without bursts keeps it. -/
theorem seqStep_takesCommandsOf {op : Operation} {q : Panel}
    (hop : ∀ p n, Action.burst n ∉ actions p op) (s t : State) (hs : TakesCommandsOf op q s)
    (h : seqStep s = .next t) : TakesCommandsOf op q t := by
  rcases hs with ⟨k, a, hq, ha, hreq, hpanel⟩ | ⟨hq, hpanel⟩
  · have hburst : ∀ n, a ≠ .burst n := fun n hn => hop s.params n (hn ▸ List.mem_of_getElem? ha)
    cases hr : s.request with
    | some r =>
      cases (seqStep_waiting hq hr).symm.trans h
      exact takesCommandsOf_settle hq ha hburst (by simpa [hr, eq_comm] using hreq) hr hpanel
    | none =>
      rw [seqStep_action hq hr ha] at h
      rcases startAction_cases h with
        ⟨_, _, rfl, rfl⟩ | ⟨rfl, rfl⟩ | ⟨rfl, rfl⟩ | ⟨_, _, _, _, rfl, -, -, rfl⟩ | ⟨r, hr', rfl⟩
      · exact takesCommandsOf_silent (u := bindContext _ _ s) ha rfl hr hpanel
      · exact takesCommandsOf_silent (u := setInitialized false s) ha rfl hr hpanel
      · exact takesCommandsOf_silent (u := setFb _ s) ha rfl hr hpanel
      · exact takesCommandsOf_silent (u := setFb _ s) ha rfl hr hpanel
      · exact takesCommandsOf_settle (u := issue r s) hq ha hburst (by rw [← hr']; cases a <;> rfl) rfl hpanel
  · cases (seqStep_idle hq).symm.trans h
    exact .inr ⟨hq, hpanel⟩

/-- What an operation without bursts that ends with `OK` leaves on the panel. -/
theorem runOperation_panel {op : Operation} {s t : State} (hop : ∀ p n, Action.burst n ∉ actions p op) (hs : Ready s)
    (h : runOperation op s = .next t) (hend : t.seq = .idle) (hok : t.lastResult = .ok) :
    t.panel = s.panel.take .cmd (commandBytes (actions t.params op)) := by
  obtain ⟨hq, hr⟩ := hs
  cases hargs : argsOk op s with
  | false =>
    cases (runOperation_invalid hq hargs).symm.trans h
    cases hok
  | true =>
    rw [runOperation_accepted hq hr hargs] at h
    have hstart : TakesCommandsOf op s.panel (setSeq (.run op 0) s) :=
      .inl ⟨0, _, rfl, List.getElem?_eq_getElem (actions_length_pos s.params op), .inl hr, rfl⟩
    rcases drive_keeps (seqStep_takesCommandsOf hop) h hstart with ⟨k, a, hq', -⟩ | ⟨-, hpanel⟩
    · simp [hend] at hq'
    · exact hpanel hok

/-! ## The bring-up -/

theorem init_sends_no_burst (p : Config.Params) (a : BusAddr) (h : BusHandle) (n : Nat) :
    Action.burst n ∉ actions p (.init a h) := by
  simp [actions]

/-- The commands of the default bring-up, in the order of R78, and "display on" (R93). -/
def bringupCommands : List Instr :=
  [.panelDisplayOff, .panelClockDiv Config.clockDiv, .panelMuxRatio Config.muxRatio,
    .panelDisplayOffset Config.displayOffset, .panelSegRemap, .panelComScanRev, .panelComPins Config.comPins,
    .panelContrast Config.contrast, .panelPrecharge Config.precharge, .panelVcomh Config.vcomh, .panelResumeRam,
    .panelNormalPolarity, .panelScrollOff, .panelAddrMode Config.addrModeHorizontal,
    .panelChargePump Config.chargePumpEnable, .panelDisplayOn]

/-- What `INIT` sends with the default parameters is these commands. -/
theorem commandBytes_init (a : BusAddr) (h : BusHandle) :
    commandBytes (actions Config.params (.init a h)) = bringupCommands.flatMap encode := rfl

/-- Each command of the bring-up sets its own setting of the panel (R33, R78). -/
theorem foldl_effect_bringupCommands (q : Panel) :
    bringupCommands.foldl (fun q i => Panel.effect i q) q = { q with
      clockDiv := Config.clockDiv, muxRatio := 0x3F, displayOffset := 0x00, segRemap := true
      comScanReversed := true, comPins := Config.comPins, contrast := Config.contrast
      precharge := Config.precharge, vcomh := Config.vcomh, followRam := true, normalPolarity := true
      scrolling := false, addrMode := 0x00, chargePump := Config.chargePumpEnable, on := true } := by
  cases q
  rfl

/-- Settles O56: the panel has taken the bytes of the bring-up's commands, and each sets its setting. -/
theorem initConfiguresThePanel : Obligations.InitConfiguresThePanel := by
  intro s t a h hparams hs hpend ht hend hok
  have hpanel := runOperation_panel (op := .init a h) (fun p => init_sends_no_burst p a h) hs
    ((exec_host rfl s).symm.trans ht) hend hok
  rw [hpanel, exec_params ht, hparams, commandBytes_init,
    Panel.take_cmd_encode (by simp [bringupCommands, layerOf]) hpend, foldl_effect_bringupCommands]

end Sys2Proof.Machine
end

section
/-! PROOFS. A command write that ends its operation, and the three operations that send one display command. -/

namespace Sys2Proof.Machine

open Sys2Proof

/-! ## A command write that ends its operation -/

/-- The result an operation ends with at a write answered like this, where it is the last one or fails (R27, R162). -/
def Answer.result (x : Answer) : Result :=
  match x with
  | .ok => .ok
  | .err e => .ioError e

/-- The state after action `k`, the command write of `b`, with the answer taken that has come. -/
def sendAt (op : Operation) (k : Nat) (b : Byte) (s : State) : State :=
  settle op k (.write .cmd [b]) (issue (.write .cmd [b]) (setSeq (.run op k) s))

theorem seqStep_send {op : Operation} {k : Nat} {b : Byte} {s : State} (hr : s.request = none)
    (ha : (actions s.params op)[k]? = some (.send b)) :
    seqStep (setSeq (.run op k) s) = .next (sendAt op k b s) := by
  rw [seqStep_action (s := setSeq _ s) rfl hr ha]
  rfl

/-- As the one step left, the write is made, and its answer taken where it has come. -/
theorem drive_one_send {op : Operation} {k : Nat} {b : Byte} {s : State} (hr : s.request = none)
    (ha : (actions s.params op)[k]? = some (.send b)) :
    drive 1 (setSeq (.run op k) s) = .next (sendAt op k b s) := by
  cases hset : settled (sendAt op k b s) with
  | true => exact drive_stop (seqStep_send hr ha) hset
  | false => exact drive_go (seqStep_send hr ha) hset

/-- From `s` to `t` the block sent `b` and ended its operation with the answer's result: the write stands in `T`, and of
the registers at most `ctx.initialized` is another. -/
structure SentAndEnded (b : Byte) (x : Answer) (rest : List Answer) (s t : State) : Prop where
  ended : EndedWith x.result s t
  busAddr : t.busAddr = s.busAddr
  busHandle : t.busHandle = s.busHandle
  tpBound : t.tpBound = s.tpBound
  tmBound : t.tmBound = s.tmBound
  fb : t.fb = s.fb
  trace : t.trace = s.trace ++ cmdEvents s.busHandle s.busAddr [b]
  answers : t.answers = rest
  delaysDone : t.delaysDone = s.delaysDone
  inputs : SameInputs s t

theorem sendAt_ok {op : Operation} {k : Nat} {b : Byte} {rest : List Answer} {s : State}
    (hans : s.answers = .ok :: rest) (hlast : (actions s.params op).length ≤ k + 1) :
    sendAt op k b s = finish .ok (markDone op
      (deliver .cmd [b] (takeAnswer rest (issue (.write .cmd [b]) (setSeq (.run op k) s))))) := by
  rw [sendAt, settle_write_ok (rest := rest) _ _ _ _ (by simpa using hans),
    completeAction_last _ (by simpa using hlast)]

theorem sendAt_err {op : Operation} {k : Nat} {b : Byte} {e : IoErr} {rest : List Answer} {s : State}
    (hans : s.answers = .err e :: rest) :
    sendAt op k b s = finish (.ioError e)
      (tear .cmd [b] (takeAnswer rest (issue (.write .cmd [b]) (setSeq (.run op k) s)))) := by
  rw [sendAt, settle_write_err (e := e) (rest := rest) _ _ _ _ (by simpa using hans)]

/-- The last write of an operation, with either answer, or an earlier one that fails, ends it. -/
theorem sendAt_ends {op : Operation} {k : Nat} {b : Byte} {x : Answer} {rest : List Answer} {s : State}
    (hans : s.answers = x :: rest) (hlast : x = .ok → (actions s.params op).length ≤ k + 1) :
    SentAndEnded b x rest s (sendAt op k b s) := by
  cases x with
  | ok =>
    rw [sendAt_ok hans (hlast rfl)]
    constructor <;> simp [EndedWith, SameInputs, Answer.result, eventOf, cmdEvents]
  | err e =>
    rw [sendAt_err hans]
    constructor <;> simp [EndedWith, SameInputs, Answer.result, eventOf, cmdEvents]

/-- Such a write sets `ctx.initialized` where it is the last one of an `INIT` and answered `OK` (R93). -/
theorem sendAt_ok_initialized {op : Operation} {k : Nat} {b : Byte} {rest : List Answer} {s : State}
    (hans : s.answers = .ok :: rest) (hlast : (actions s.params op).length ≤ k + 1) :
    (sendAt op k b s).initialized = (op.isInit || s.initialized) := by
  rw [sendAt_ok hans hlast, finish_initialized, markDone_initialized]
  rfl

/-- A write that fails leaves `ctx.initialized`. -/
theorem sendAt_err_initialized {op : Operation} {k : Nat} {b : Byte} {e : IoErr} {rest : List Answer} {s : State}
    (hans : s.answers = .err e :: rest) : (sendAt op k b s).initialized = s.initialized := by
  rw [sendAt_err hans]
  rfl

/-- No operation but `INIT` sets `ctx.initialized` by its last write. -/
theorem sendAt_initialized {op : Operation} {k : Nat} {b : Byte} {x : Answer} {rest : List Answer} {s : State}
    (hop : op.isInit = false) (hans : s.answers = x :: rest) (hlast : (actions s.params op).length ≤ k + 1) :
    (sendAt op k b s).initialized = s.initialized := by
  cases x with
  | ok => rw [sendAt_ok_initialized hans hlast, hop, Bool.false_or]
  | err e => exact sendAt_err_initialized hans

theorem sendAt_trace (op : Operation) (k : Nat) (b : Byte) (s : State) :
    (sendAt op k b s).trace = s.trace ++ cmdEvents s.busHandle s.busAddr [b] := settle_trace _ _ _ _

/-! ## `DEINIT`, `POWER_ON`, `POWER_OFF` -/

theorem handlesOk_of_bound {s : State} (htp : s.tpBound = true) (htm : s.tmBound = true) : handlesOk s = true := by
  rw [handlesOk, htp, htm]
  rfl

theorem handlesOk_of_unbound {s : State} (h : s.tpBound = false ∨ s.tmBound = false) : handlesOk s = false := by
  rcases h with h | h <;> simp [handlesOk, h]

/-- A check that fails changes only the result (R161). -/
theorem exec_invalid {i : Instr} {op : Operation} {s : State} (hop : operationOf i = some op) (hs : Ready s)
    (hargs : argsOk op s = false) : exec i s = .next (onlyResult .invalidArgument s) := by
  rw [exec_host hop, runOperation_invalid hs.1 hargs, finish_eq_onlyResult _ hs]

/-- With a handle unbound each of the three changes only the result (R99). -/
theorem exec_unbound {i : Instr} {s : State} (hi : i = .deinit ∨ i = .powerOn ∨ i = .powerOff) (hs : Ready s)
    (h : handlesOk s = false) : exec i s = .next (onlyResult .invalidArgument s) := by
  rcases hi with rfl | rfl | rfl
  · exact exec_invalid (op := .deinit) rfl hs h
  · exact exec_invalid (op := .powerOn) rfl hs h
  · exact exec_invalid (op := .powerOff) rfl hs h

/-- `POWER_ON` with its handles bound is the write of "display on" (R97). -/
theorem exec_powerOn {s : State} (hs : Ready s) (h : handlesOk s = true) :
    exec .powerOn s = .next (sendAt .powerOn 0 s.params.cmdDisplayOn s) := by
  rw [exec_host rfl, runOperation_accepted (op := .powerOn) hs.1 hs.2 h]
  exact drive_one_send hs.2 rfl

/-- `POWER_OFF` with its handles bound is the write of "display off" (R98). -/
theorem exec_powerOff {s : State} (hs : Ready s) (h : handlesOk s = true) :
    exec .powerOff s = .next (sendAt .powerOff 0 s.params.cmdDisplayOff s) := by
  rw [exec_host rfl, runOperation_accepted (op := .powerOff) hs.1 hs.2 h]
  exact drive_one_send hs.2 rfl

/-- `DEINIT` with its handles bound clears `ctx.initialized`, then writes "display off" (R96). -/
theorem exec_deinit {s : State} (hs : Ready s) (h : handlesOk s = true) :
    exec .deinit s = .next (sendAt .deinit 1 s.params.cmdDisplayOff (setInitialized false s)) := by
  have hunmark : seqStep (setSeq (.run .deinit 0) s) =
      .next (setSeq (.run .deinit 1) (setInitialized false s)) := by
    rw [seqStep_action (s := setSeq _ s) (a := .unmark) rfl hs.2 rfl]
    rfl
  have hrunning : settled (setSeq (.run .deinit 1) (setInitialized false s)) = false := by
    simp [settled, Seq.isIdle, hs.2]
  rw [exec_host rfl, runOperation_accepted (op := .deinit) hs.1 hs.2 h]
  exact (drive_go hunmark hrunning).trans (drive_one_send (s := setInitialized false s) hs.2 rfl)

/-- What O20 and O21 say of an operation that sends one command and writes no register. -/
theorem exec_one_send {i : Instr} {op : Operation} {b : Byte} {x : Answer} {rest : List Answer} {s : State}
    (hexec : exec i s = .next (sendAt op 0 b s)) (hop : op.isInit = false)
    (hlast : (actions s.params op).length ≤ 1) (hans : s.answers = x :: rest) :
    ∃ t, exec i s = .next t ∧ EndedWith x.result s t ∧ SameContext s t ∧ SameBuffer s t ∧
      t.trace = s.trace ++ cmdEvents s.busHandle s.busAddr [b] ∧ t.answers = rest ∧ t.delaysDone = s.delaysDone ∧
      SameInputs s t := by
  have h := sendAt_ends (b := b) hans fun _ => hlast
  exact ⟨_, hexec, h.ended, ⟨sendAt_initialized hop hans hlast, h.busAddr, h.busHandle, h.tpBound, h.tmBound⟩,
    fun _ => congrArg (Memory.read · _) h.fb, h.trace, h.answers, h.delaysDone, h.inputs⟩

/-- Settles O20: `exec_powerOn`, with either answer to the write. -/
theorem powerOnSendsDisplayOn : Obligations.PowerOnSendsDisplayOn := by
  intro s hs
  have hsend {x : Answer} {rest : List Answer} (htp : s.tpBound = true) (htm : s.tmBound = true)
      (hans : s.answers = x :: rest) :=
    exec_one_send (exec_powerOn hs (handlesOk_of_bound htp htm)) rfl le_rfl hans
  exact ⟨fun _ => hsend, fun _ _ => hsend, fun h => exec_unbound (.inr (.inl rfl)) hs (handlesOk_of_unbound h)⟩

/-- Settles O21: `exec_powerOff`, with either answer to the write. -/
theorem powerOffSendsDisplayOff : Obligations.PowerOffSendsDisplayOff := by
  intro s hs
  have hsend {x : Answer} {rest : List Answer} (htp : s.tpBound = true) (htm : s.tmBound = true)
      (hans : s.answers = x :: rest) :=
    exec_one_send (exec_powerOff hs (handlesOk_of_bound htp htm)) rfl le_rfl hans
  exact ⟨fun _ => hsend, fun _ _ => hsend, fun h => exec_unbound (.inr (.inr rfl)) hs (handlesOk_of_unbound h)⟩

/-- `DEINIT` with its handles bound and its write answered (R96). -/
theorem exec_deinit_answered {x : Answer} {rest : List Answer} {s : State} (hs : Ready s) (htp : s.tpBound = true)
    (htm : s.tmBound = true) (hans : s.answers = x :: rest) :
    ∃ t, exec .deinit s = .next t ∧ EndedWith x.result s t ∧ t.initialized = false ∧ t.tpBound = true ∧
      t.tmBound = true ∧ t.busAddr = s.busAddr ∧ t.busHandle = s.busHandle ∧ SameBuffer s t ∧
      t.trace = s.trace ++ cmdEvents s.busHandle s.busAddr [s.params.cmdDisplayOff] ∧ t.answers = rest ∧
      t.delaysDone = s.delaysDone ∧ SameInputs s t := by
  have hlast : (actions s.params .deinit).length ≤ 1 + 1 := le_rfl
  have h := sendAt_ends (s := setInitialized false s) (b := s.params.cmdDisplayOff) hans fun _ => hlast
  exact ⟨_, exec_deinit hs (handlesOk_of_bound htp htm), h.ended,
    sendAt_initialized (s := setInitialized false s) rfl hans hlast, h.tpBound.trans htp, h.tmBound.trans htm,
    h.busAddr, h.busHandle, fun _ => congrArg (Memory.read · _) h.fb, h.trace, h.answers, h.delaysDone, h.inputs⟩

/-- Settles O19: `exec_deinit_answered`, with either answer to the write. -/
theorem deinitMarksThenSendsDisplayOff : Obligations.DeinitMarksThenSendsDisplayOff := fun _ hs =>
  ⟨fun _ => exec_deinit_answered hs, fun _ _ => exec_deinit_answered hs,
    fun h => exec_unbound (.inl rfl) hs (handlesOk_of_unbound h)⟩

/-! ## The handle check -/

/-- With both handles bound each of the three is one command write, whatever the pins are (R99). -/
theorem exec_bound {i : Instr} {s : State} (hi : i = .deinit ∨ i = .powerOn ∨ i = .powerOff) (hs : Ready s)
    (h : handlesOk s = true) :
    ∃ op k b u, u.trace = s.trace ∧ ∀ p, exec i (setPins p s) = .next (sendAt op k b (setPins p u)) := by
  rcases hi with rfl | rfl | rfl
  · exact ⟨.deinit, 1, s.params.cmdDisplayOff, setInitialized false s, rfl,
      fun p => exec_deinit (s := setPins p s) hs h⟩
  · exact ⟨.powerOn, 0, s.params.cmdDisplayOn, s, rfl, fun p => exec_powerOn (s := setPins p s) hs h⟩
  · exact ⟨.powerOff, 0, s.params.cmdDisplayOff, s, rfl, fun p => exec_powerOff (s := setPins p s) hs h⟩

theorem completeAction_setPins (op : Operation) (k : Nat) (p : Pins) (s : State) :
    completeAction op k (setPins p s) = setPins p (completeAction op k s) := by
  unfold completeAction
  rw [setPins_params]
  split
  · rfl
  · cases op <;> rfl

/-- Taking an answer does not read the pins. -/
theorem settle_setPins (op : Operation) (k : Nat) (r : Request) (p : Pins) (s : State) :
    settle op k r (setPins p s) = setPins p (settle op k r s) := by
  rcases settle_cases op k r s with
    ⟨h, ⟨sel, bytes, rfl, hans⟩ | ⟨ms, rfl, hd⟩⟩ | ⟨sel, bytes, rest, rfl, hans, h⟩ |
    ⟨sel, bytes, e, rest, rfl, hans, h⟩ | ⟨ms, n, rfl, hd, h⟩ <;> rw [h]
  · exact settle_write_none _ _ _ _ hans
  · exact settle_delay_none _ _ _ hd
  · exact (settle_write_ok (s := setPins p s) _ _ _ _ hans).trans
      (completeAction_setPins op k p (deliver sel bytes (takeAnswer rest s)))
  · exact settle_write_err (s := setPins p s) _ _ _ _ hans
  · exact (settle_delay_done (s := setPins p s) _ _ _ hd).trans (completeAction_setPins op k p (takeDelay n s))

theorem sendAt_setPins (op : Operation) (k : Nat) (b : Byte) (p : Pins) (s : State) :
    sendAt op k b (setPins p s) = setPins p (sendAt op k b s) :=
  settle_setPins op k (.write .cmd [b]) p (issue (.write .cmd [b]) (setSeq (.run op k) s))

/-- Settles O22: `exec_unbound` and `exec_bound`, whose write stands in `T`. -/
theorem handleCheckReadsTheBoundBits : Obligations.HandleCheckReadsTheBoundBits := by
  intro s i hs hi
  refine ⟨fun h => exec_unbound hi hs (handlesOk_of_unbound h), fun htp htm => ?_, fun p => ?_⟩
  · obtain ⟨op, k, b, u, hu, hexec⟩ := exec_bound hi hs (handlesOk_of_bound htp htm)
    refine ⟨_, hexec s.pins, ?_⟩
    rw [sendAt_trace, setPins_trace, hu]
    simp [cmdEvents]
  · show exec i (setPins p s) = mapNext (setPins p) (exec i (setPins s.pins s))
    cases h : handlesOk s with
    | false =>
      rw [exec_unbound (s := setPins p s) hi hs h, exec_unbound (s := setPins s.pins s) hi hs h]
      rfl
    | true =>
      obtain ⟨op, k, b, u, -, hexec⟩ := exec_bound hi hs h
      rw [hexec, hexec, sendAt_setPins, sendAt_setPins]
      rfl

/-! ## The panel -/

/-- The last write of an operation, answered `OK`, with a byte that is a whole command: the command acts on the panel
(R49, R181). -/
theorem sendAt_ok_panel {op : Operation} {k : Nat} {b : Byte} {i : Instr} {rest : List Answer} {s : State}
    (hans : s.answers = .ok :: rest) (hlast : (actions s.params op).length ≤ k + 1) (hpend : s.panel.pending = [])
    (hi : layerOf i = .panelCommand) (hb : encode i = [b]) :
    (sendAt op k b s).panel = Panel.effect i s.panel ∧ (sendAt op k b s).channel = .cmd := by
  rw [sendAt_ok hans hlast, ← Panel.foldl_cmdByte_encode hi hpend, hb]
  exact ⟨by simp [Panel.take], by simp⟩

/-- Settles O57: the one byte each operation sends is the panel's "display on" or "display off". -/
theorem powerCommandsReachThePanel : Obligations.PowerCommandsReachThePanel := by
  intro s rest hparams hs htp htm hans hpend
  have hbound := handlesOk_of_bound htp htm
  have hon : encode .panelDisplayOn = [s.params.cmdDisplayOn] := by rw [hparams]; rfl
  have hoff : encode .panelDisplayOff = [s.params.cmdDisplayOff] := by rw [hparams]; rfl
  exact ⟨⟨_, exec_powerOn hs hbound, sendAt_ok_panel hans le_rfl hpend rfl hon⟩,
    ⟨_, exec_powerOff hs hbound, sendAt_ok_panel hans le_rfl hpend rfl hoff⟩,
    ⟨_, exec_deinit hs hbound, sendAt_ok_panel (s := setInitialized false s) hans le_rfl hpend rfl hoff⟩⟩

end Sys2Proof.Machine
end

section
/-! PROOFS. `INIT`: its pins, its bring-up and where it aborts. -/

namespace Sys2Proof.Machine

open Sys2Proof

/-! ## The action list of `INIT` -/

theorem actions_init (p : Config.Params) (a : BusAddr) (h : BusHandle) :
    actions p (.init a h) = .bind a h :: (p.bringup.flatten.map Action.send ++
      [.delay p.settleMs, .zeroFill, .send p.cmdDisplayOn]) := rfl

/-- Action `1 + j` sends byte `j` of the bring-up (R93). -/
theorem actions_init_send (p : Config.Params) (a : BusAddr) (h : BusHandle) {j : Nat}
    (hj : j < p.bringup.flatten.length) :
    (actions p (.init a h))[1 + j]? = some (.send p.bringup.flatten[j]) := by
  rw [actions_init, Nat.add_comm, List.getElem?_cons_succ, List.getElem?_append_left (by rwa [List.length_map]),
    List.getElem?_map, List.getElem?_eq_getElem hj]
  rfl

/-- Behind the bring-up stand the delay, the zero-fill and "display on" (R93). -/
theorem actions_init_end (p : Config.Params) (a : BusAddr) (h : BusHandle) (j : Nat) :
    (actions p (.init a h))[1 + p.bringup.flatten.length + j]? =
      [.delay p.settleMs, .zeroFill, .send p.cmdDisplayOn][j]? := by
  have hj : 1 + p.bringup.flatten.length + j = p.bringup.flatten.length + j + 1 := by omega
  rw [actions_init, hj, List.getElem?_cons_succ, List.getElem?_append_right (by rw [List.length_map]; omega),
    List.length_map, Nat.add_sub_cancel_left]

/-! ## The run of `INIT` -/

/-- A delay that has completed: the next action follows (R175). -/
theorem seqStep_delay {op : Operation} {k d : Nat} {ms : Millis} {s : State} (hr : s.request = none)
    (ha : (actions s.params op)[k]? = some (.delay ms)) (hd : s.delaysDone = d + 1)
    (hk : k + 1 < (actions s.params op).length) :
    seqStep (setSeq (.run op k) s) = .next (setSeq (.run op (k + 1)) (takeDelay d (issue (.delay ms) s))) := by
  rw [seqStep_action (s := setSeq _ s) rfl hr ha, startAction,
    settle_delay_done (s := issue (.delay ms) (setSeq (.run op k) s)) _ _ _ hd,
    completeAction_more (takeDelay d (issue (.delay ms) (setSeq (.run op k) s))) hk]
  rfl

/-- A zero-fill before the last action: the next one follows. -/
theorem seqStep_zeroFill {op : Operation} {k : Nat} {s : State} (hr : s.request = none)
    (ha : (actions s.params op)[k]? = some .zeroFill) (hk : k + 1 < (actions s.params op).length) :
    seqStep (setSeq (.run op k) s) = .next (setSeq (.run op (k + 1)) (setFb [] s)) := by
  rw [seqStep_action (s := setSeq _ s) rfl hr ha, startAction,
    completeAction_more (zeroFill (setSeq (.run op k) s)) hk]
  rfl

/-- With the pins high `INIT` binds the context, and its other actions run from the second (R92, R93). -/
theorem exec_init {s : State} (a : BusAddr) (h : BusHandle) (hs : Ready s) (hpins : s.pins = ⟨true, true, true⟩) :
    exec (.init a h) s =
      drive (s.params.bringup.flatten.length + 3) (setSeq (.run (.init a h) 1) (bindContext a h s)) := by
  have hlen := actions_length_init s.params a h
  have hbind : seqStep (setSeq (.run (.init a h) 0) s) =
      .next (setSeq (.run (.init a h) 1) (bindContext a h s)) := by
    rw [seqStep_action (s := setSeq _ s) (a := .bind a h) rfl hs.2 rfl, startAction,
      completeAction_more (bindContext a h (setSeq (.run (.init a h) 0) s))
        (show 0 + 1 < (actions s.params (.init a h)).length by omega)]
    rfl
  rw [exec_host rfl, runOperation_accepted (op := .init a h) hs.1 hs.2 ((pinsOk_iff s).2 hpins), hlen, Nat.add_comm 4]
  exact drive_go hbind (by simp [settled, Seq.isIdle, hs.2])

/-- Settles O18: the binding writes every context register. -/
theorem initIgnoresTheOldContext : Obligations.InitIgnoresTheOldContext := by
  intro s a h i tp tm a' h' hs hpins
  rw [exec_init a h hs hpins]
  exact exec_init (s := { s with initialized := i, tpBound := tp, tmBound := tm, busAddr := a', busHandle := h' }) a h
    hs hpins

/-- The context is bound and the first bytes of the bring-up are sent, each answered `OK`. -/
def broughtUp (a : BusAddr) (h : BusHandle) (bytes : List Byte) (rest : List Answer) (s : State) : State :=
  sentBytes (.init a h) 1 bytes rest (bindContext a h s)

/-- The first `k` writes of the bring-up answered `OK`: `INIT` runs on behind them. -/
theorem exec_init_broughtUp {s : State} (a : BusAddr) (h : BusHandle) {k : Nat} {rest : List Answer} (hs : Ready s)
    (hpins : s.pins = ⟨true, true, true⟩) (hk : k ≤ s.params.bringup.flatten.length)
    (hans : s.answers = List.replicate k .ok ++ rest) :
    exec (.init a h) s =
      drive (s.params.bringup.flatten.length - k + 3)
        (setSeq (.run (.init a h) (1 + k)) (broughtUp a h (s.params.bringup.flatten.take k) rest s)) := by
  have hlen : (s.params.bringup.flatten.take k).length = k := by rw [List.length_take]; omega
  have hsends := drive_sends (op := .init a h) (bytes := s.params.bringup.flatten.take k) (k := 1) (rest := rest)
    (s := setSeq (.run (.init a h) 1) (bindContext a h s)) (n := s.params.bringup.flatten.length - k + 3)
    (fun j hj => by
      rw [List.getElem_take]
      exact actions_init_send s.params a h (by omega))
    (by
      show _ < (actions s.params (.init a h)).length
      rw [actions_length_init]
      omega)
    rfl hs.2 (by rw [hlen]; exact hans)
  rw [exec_init a h hs hpins]
  rw [hlen] at hsends
  rw [show s.params.bringup.flatten.length + 3 = k + (s.params.bringup.flatten.length - k + 3) by omega, hsends]
  simp only [broughtUp, sentBytes, hlen]
  rfl

/-- Before "display on": the whole bring-up is sent, the delay has completed, the buffer is zero. -/
def beforeDisplayOn (a : BusAddr) (h : BusHandle) (rest : List Answer) (d : Nat) (s : State) : State :=
  setFb [] (takeDelay d (issue (.delay s.params.settleMs) (broughtUp a h s.params.bringup.flatten rest s)))

/-- The bring-up answered `OK` and the delay completed: what is left of `INIT` is the write of "display on". -/
theorem exec_init_displayOn {s : State} (a : BusAddr) (h : BusHandle) {rest : List Answer} {d : Nat} (hs : Ready s)
    (hpins : s.pins = ⟨true, true, true⟩)
    (hans : s.answers = List.replicate s.params.bringup.flatten.length .ok ++ rest) (hd : s.delaysDone = d + 1) :
    exec (.init a h) s = .next (sendAt (.init a h) (1 + s.params.bringup.flatten.length + 2) s.params.cmdDisplayOn
      (beforeDisplayOn a h rest d s)) := by
  have hlen := actions_length_init s.params a h
  have hact := actions_init_end s.params a h
  have hdelay := seqStep_delay (s := broughtUp a h s.params.bringup.flatten rest s) hs.2 (hact 0) hd
    (show _ < (actions s.params (.init a h)).length by omega)
  have hfill := seqStep_zeroFill
    (s := takeDelay d (issue (.delay s.params.settleMs) (broughtUp a h s.params.bringup.flatten rest s))) rfl (hact 1)
    (show _ < (actions s.params (.init a h)).length by omega)
  rw [exec_init_broughtUp a h hs hpins le_rfl hans, List.take_length, Nat.sub_self]
  exact (drive_go hdelay rfl).trans ((drive_go hfill rfl).trans
    (drive_one_send (s := beforeDisplayOn a h rest d s) rfl (hact 2)))

/-- `INIT` up to "display on", with either answer to that write. -/
theorem exec_init_answered {s : State} (a : BusAddr) (h : BusHandle) {x : Answer} {rest : List Answer} {d : Nat}
    (hs : Ready s) (hpins : s.pins = ⟨true, true, true⟩)
    (hans : s.answers = List.replicate s.params.bringup.flatten.length .ok ++ x :: rest) (hd : s.delaysDone = d + 1) :
    ∃ t, exec (.init a h) s = .next t ∧ EndedWith x.result s t ∧ t.initialized = decide (x = .ok) ∧ t.busAddr = a ∧
      t.busHandle = h ∧ t.tpBound = true ∧ t.tmBound = true ∧ (∀ y, Memory.read t.fb y = 0x00) ∧
      t.trace = s.trace ++ initTrace s.params h a ∧ t.answers = rest ∧ t.delaysDone = d ∧ SameInputs s t := by
  have hlast : (actions (beforeDisplayOn a h (x :: rest) d s).params (.init a h)).length ≤
      1 + s.params.bringup.flatten.length + 2 + 1 := by
    show (actions s.params (.init a h)).length ≤ _
    rw [actions_length_init]
    omega
  have hsent := sendAt_ends (s := beforeDisplayOn a h (x :: rest) d s) (b := s.params.cmdDisplayOn) rfl fun _ => hlast
  refine ⟨_, exec_init_displayOn a h hs hpins hans hd, hsent.ended, ?_, hsent.busAddr, hsent.busHandle, hsent.tpBound,
    hsent.tmBound, fun y => congrArg (Memory.read · y) hsent.fb, ?_, hsent.answers, hsent.delaysDone, hsent.inputs⟩
  · cases x with
    | ok => exact sendAt_ok_initialized (s := beforeDisplayOn a h (.ok :: rest) d s) rfl hlast
    | err e => exact sendAt_err_initialized (s := beforeDisplayOn a h (.err e :: rest) d s) rfl
  · rw [hsent.trace, initTrace, ← List.append_assoc, ← List.append_assoc]
    rfl

/-- The default bring-up is the fifteen groups of R78 in its order. -/
theorem initTrace_default (a : BusAddr) (h : BusHandle) :
    initTrace Config.params h a =
      cmdEvents h a ([Config.cmdDisplayOff] ++ [Config.cmdClockDiv, Config.clockDiv] ++ [Config.cmdMuxRatio, 0x3F] ++
        [Config.cmdDisplayOffset, 0x00] ++ [Config.cmdSegRemap] ++ [Config.cmdComScanRev] ++
        [Config.cmdComPins, Config.comPins] ++ [Config.cmdContrast, Config.contrast] ++
        [Config.cmdPrecharge, Config.precharge] ++ [Config.cmdVcomh, Config.vcomh] ++ [Config.cmdResumeRam] ++
        [Config.cmdNormalPolarity] ++ [Config.cmdScrollOff] ++ [Config.cmdAddrMode, Config.addrModeHorizontal] ++
        [Config.cmdChargePump, Config.chargePumpEnable]) ++
      [.delay Config.params.settleMs] ++ cmdEvents h a [Config.cmdDisplayOn] := rfl

/-- Settles O15: `exec_init_answered` with `OK`, and the default parameters. -/
theorem initRunsTheWholeBringUp : Obligations.InitRunsTheWholeBringUp := by
  intro s a h rest d hs hpins hans hd
  have hans' : s.answers = List.replicate s.params.bringup.flatten.length .ok ++ .ok :: rest := by
    rw [hans, List.replicate_succ', List.append_assoc]
    rfl
  obtain ⟨t, ht, hend, hinit, haddr, hhandle, htp, htm, hfb, htrace, hrest, hdelays, hin⟩ :=
    exec_init_answered a h hs hpins hans' hd
  refine ⟨actions_length_init _ _ _, t, ht, hend, hinit, haddr, hhandle, htp, htm, hfb, htrace, hrest, hdelays, hin,
    fun hparams => ?_⟩
  rw [hparams] at htrace ⊢
  refine ⟨rfl, ?_⟩
  rw [htrace, initTrace_default]
  simp only [List.append_assoc]

/-! ## A write that fails -/

theorem cmdEvents_append (h : BusHandle) (a : BusAddr) (bs bs' : List Byte) :
    cmdEvents h a (bs ++ bs') = cmdEvents h a bs ++ cmdEvents h a bs' := List.map_append

/-- `INIT` with its first failed write one of the bring-up ends there (R94, R162). -/
theorem exec_init_failed {s : State} (a : BusAddr) (h : BusHandle) {k : Nat} {e : IoErr} {rest : List Answer}
    (hs : Ready s) (hpins : s.pins = ⟨true, true, true⟩) (hk : k < s.params.bringup.flatten.length)
    (hans : s.answers = List.replicate k .ok ++ .err e :: rest) :
    exec (.init a h) s = .next (sendAt (.init a h) (1 + k) s.params.bringup.flatten[k]
      (broughtUp a h (s.params.bringup.flatten.take k) (.err e :: rest) s)) := by
  rw [exec_init_broughtUp a h hs hpins hk.le hans]
  refine drive_stop (seqStep_send hs.2 (actions_init_send s.params a h hk)) ?_
  rw [sendAt_err rfl]
  rfl

/-- Settles O17: `exec_init_failed` at a write of the bring-up, `exec_init_answered` at "display on". -/
theorem initAbortsOnAFailedWrite : Obligations.InitAbortsOnAFailedWrite := by
  intro s a h e rest hs hpins
  refine ⟨fun k hk hans => ?_, fun n hans hd => exec_init_answered a h hs hpins hans hd⟩
  have hsent := sendAt_ends (op := .init a h) (k := 1 + k) (b := s.params.bringup.flatten[k])
    (s := broughtUp a h (s.params.bringup.flatten.take k) (.err e :: rest) s) rfl nofun
  refine ⟨_, exec_init_failed a h hs hpins hk hans, hsent.ended, sendAt_err_initialized rfl, hsent.busAddr,
    hsent.busHandle, hsent.tpBound, hsent.tmBound, fun _ => congrArg (Memory.read · _) hsent.fb, ?_, hsent.answers,
    hsent.delaysDone, hsent.inputs⟩
  rw [hsent.trace, List.take_succ_eq_append_getElem hk, cmdEvents_append, ← List.append_assoc]
  rfl

/-! ## The pins -/

/-- The context is bound at these operands (R91). -/
def BoundAt (a : BusAddr) (h : BusHandle) (s : State) : Prop :=
  s.busAddr = a ∧ s.busHandle = h ∧ s.tpBound = true ∧ s.tmBound = true

theorem boundAt_completeAction {a : BusAddr} {h : BusHandle} {s : State} (op : Operation) (k : Nat)
    (hs : BoundAt a h s) : BoundAt a h (completeAction op k s) := by
  simpa [BoundAt] using hs

theorem boundAt_settle {a : BusAddr} {h : BusHandle} {s : State} (op : Operation) (k : Nat) (r : Request)
    (hs : BoundAt a h s) : BoundAt a h (settle op k r s) := by
  rcases settle_cases op k r s with ⟨h', -⟩ | ⟨_, _, _, -, -, h'⟩ | ⟨_, _, _, _, -, -, h'⟩ | ⟨_, _, -, -, h'⟩ <;>
    rw [h']
  · exact hs
  · exact boundAt_completeAction op k hs
  · exact hs
  · exact boundAt_completeAction op k hs

/-- While an `INIT` runs the context stays bound at its operands: it alone binds, and at no others. -/
theorem seqStep_boundAt {a : BusAddr} {h : BusHandle} (s t : State)
    (hs : (s.seq = .idle ∨ ∃ k, s.seq = .run (.init a h) k) ∧ BoundAt a h s) (ht : seqStep s = .next t) :
    (t.seq = .idle ∨ ∃ k, t.seq = .run (.init a h) k) ∧ BoundAt a h t := by
  obtain ⟨hseq, hbound⟩ := hs
  refine ⟨seqStep_sameOperation ht hseq, ?_⟩
  rcases seqStep_cases ht with ⟨-, rfl⟩ | ⟨op, k, r, -, -, rfl⟩ | ⟨op, k, x, hq, -, hx, hstart⟩
  · exact hbound
  · exact boundAt_settle op k r hbound
  · rcases startAction_cases hstart with
      ⟨a', h', rfl, rfl⟩ | ⟨-, rfl⟩ | ⟨-, rfl⟩ | ⟨_, _, _, _, -, -, -, rfl⟩ | ⟨r, -, rfl⟩
    · obtain ⟨rfl, -⟩ : op = .init a' h' ∧ k = 0 := by simpa using action_cases hx
      have hop : Operation.init a' h' = .init a h := by simpa [hq] using hseq
      cases hop
      exact boundAt_completeAction (s := bindContext a h s) _ k ⟨rfl, rfl, rfl, rfl⟩
    · exact boundAt_completeAction (s := setInitialized false s) op k hbound
    · exact boundAt_completeAction (s := setFb [] s) op k hbound
    · exact boundAt_completeAction (s := setFb _ s) op k hbound
    · exact boundAt_settle (s := issue r s) op k r hbound

/-- What every step keeps and the first one establishes holds after `drive`. -/
theorem drive_keeps_of_step {P : State → Prop} (hP : ∀ s t, P s → seqStep s = .next t → P t) {n : Nat} {s t u : State}
    (hu : seqStep s = .next u) (hPu : P u) (h : drive (n + 1) s = .next t) : P t := by
  cases hset : settled u with
  | true =>
    cases (drive_stop hu hset).symm.trans h
    exact hPu
  | false => exact drive_keeps hP ((drive_go hu hset).symm.trans h) hPu

/-- A run that begins with a request leaves `T` longer. -/
theorem trace_ne_of_drive_request {op : Operation} {n k : Nat} {x : Action} {r : Request} {s t : State}
    (hq : s.seq = .run op k) (hr : s.request = none) (ha : (actions s.params op)[k]? = some x)
    (hreq : requestOf x s = some r) (h : drive (n + 1) s = .next t) : t.trace ≠ s.trace := by
  have hgrows (u v : State) (hu : s.trace.length < u.trace.length) (hv : seqStep u = .next v) :
      s.trace.length < v.trace.length := by
    obtain ⟨new, hnew, -⟩ := seqStep_legalTraceSince hv
    rw [hnew, List.length_append]
    omega
  have hlonger : s.trace.length < t.trace.length :=
    drive_keeps_of_step hgrows ((seqStep_action hq hr ha).trans (startAction_request op k hreq)) (by simp) h
  exact fun heq => absurd (congrArg List.length heq) hlonger.ne'

/-- The second action of `INIT` is a request: a bring-up write, or the delay where the bring-up list is empty. -/
theorem actions_init_request (p : Config.Params) (a : BusAddr) (h : BusHandle) (s : State) :
    ∃ x r, (actions p (.init a h))[1]? = some x ∧ requestOf x s = some r := by
  rcases Nat.eq_zero_or_pos p.bringup.flatten.length with hzero | hpos
  · have hdelay := actions_init_end p a h 0
    rw [hzero] at hdelay
    exact ⟨_, _, hdelay, rfl⟩
  · exact ⟨_, _, actions_init_send p a h hpos, rfl⟩

/-- Settles O16: a low pin fails the check; else the context is bound and stays so, and the second action appends to
`T`. -/
theorem initChecksItsPins : Obligations.InitChecksItsPins := by
  intro s a h hs
  refine ⟨fun hlow => ?_, fun hpins => ?_⟩
  · refine exec_invalid (op := .init a h) rfl hs ?_
    rcases hlow with hlow | hlow | hlow <;> simp [argsOk, pinsOk, hlow]
  · obtain ⟨t, ht⟩ := exec_answers (.init a h) s
    have hdrive := (exec_init a h hs hpins).symm.trans ht
    set u := setSeq (.run (.init a h) 1) (bindContext a h s)
    obtain ⟨x, r, hx, hr⟩ := actions_init_request s.params a h u
    obtain ⟨-, haddr, hhandle, htp, htm⟩ :=
      drive_keeps seqStep_boundAt hdrive ⟨.inr ⟨1, rfl⟩, rfl, rfl, rfl, rfl⟩
    exact ⟨t, ht, haddr, hhandle, htp, htm, trace_ne_of_drive_request (s := u) rfl hs.2 hx hr hdrive⟩

end Sys2Proof.Machine
end

section
/-! PROOFS. The buffer operations: the context they need, `CLEAR`, and the one byte and one bit of `SET_PIXEL`. -/

namespace Sys2Proof.Machine

open Sys2Proof

/-! ## The checks -/

/-- `SET_PIXEL`'s checks pass exactly with an initialised context and a pixel of the panel (R112). -/
theorem argsOk_setPixel_iff (x y : Byte) (c : Color) (s : State) :
    argsOk (.setPixel x y c) s = true ↔ s.initialized = true ∧ x.toNat < 128 ∧ y.toNat < 64 := by
  rw [argsOk, Bool.and_eq_true, onPanel_iff, contextOk]

/-- Settles O28: the check of each of the three reads `ctx.initialized`, and a check that fails changes only the
result. -/
theorem dataPlaneNeedsAnInitializedContext : Obligations.DataPlaneNeedsAnInitializedContext := by
  rintro s i hs hi (rfl | ⟨x, y, c, rfl⟩ | rfl)
  · exact exec_invalid (op := .clear) rfl hs hi
  · exact exec_setPixel_uninitialized c hs hi
  · exact exec_invalid (op := .updateDisplay) rfl hs hi

/-! ## `CLEAR` -/

/-- `CLEAR`'s one action empties the buffer and ends the operation with `OK`. -/
theorem seqStep_clear {s : State} (hq : s.seq = .run .clear 0) (hr : s.request = none) :
    seqStep s = .next (finish .ok (setFb [] s)) := by
  rw [seqStep_action (a := .zeroFill) hq hr rfl]
  rfl

/-- `CLEAR` with an initialised context: the buffer is emptied and the operation ends with `OK` (R111). -/
theorem exec_clear_accepted {s : State} (hs : Ready s) (hi : s.initialized = true) :
    exec .clear s = .next (onlyResult .ok (setFb [] s)) := by
  obtain ⟨hq, hr⟩ := hs
  rw [exec_host rfl, runOperation_accepted (op := .clear) hq hr hi,
    ← finish_eq_onlyResult .ok (s := setFb [] s) ⟨hq, hr⟩]
  exact drive_stop (seqStep_clear (s := setSeq (.run .clear 0) s) rfl hr) rfl

/-- Settles O23: the emptied buffer reads 0x00 at every address. -/
theorem clearZeroFillsTheBuffer : Obligations.ClearZeroFillsTheBuffer := fun _ hs =>
  ⟨fun hi => ⟨[], exec_clear_accepted hs hi, Memory.read_nil⟩,
    fun hi => dataPlaneNeedsAnInitializedContext _ _ hs hi (.inl rfl)⟩

/-! ## `SET_PIXEL` -/

theorem read_plotted_same (x y : Byte) (c : Color) (s : State) :
    Memory.read (plotted x y c s).fb (linear (pageOf y) x.toNat) =
      withPixel y c (Memory.read s.fb (linear (pageOf y) x.toNat)) := Memory.read_write_same _ _ _

theorem read_plotted_ne {x y : Byte} {a : Nat} (c : Color) (s : State) (ha : a ≠ linear (pageOf y) x.toNat) :
    Memory.read (plotted x y c s).fb a = Memory.read s.fb a := Memory.read_write_ne _ _ ha

/-- Settles O24: one byte is written where the checks pass, and only the result where one fails. -/
theorem setPixelWritesOneByte : Obligations.SetPixelWritesOneByte := by
  intro s x y c hs
  refine ⟨fun hi hx hy => ⟨(plotted x y c s).fb, exec_setPixel_accepted c hs hi hx hy, ?_,
    fun _ ha => read_plotted_ne c s ha⟩, fun hfail => ?_⟩
  · cases c <;> exact read_plotted_same x y _ s
  · refine exec_invalid (op := .setPixel x y c) rfl hs (Bool.eq_false_iff.2 fun hargs => ?_)
    obtain ⟨hi, hx, hy⟩ := (argsOk_setPixel_iff x y c s).1 hargs
    rcases hfail with hfail | hfail | hfail
    · cases hi.symm.trans hfail
    · exact Nat.not_lt.2 hfail hx
    · exact Nat.not_lt.2 hfail hy

/-- The bit of row `y` in the byte with its pixel set to `c`: 1 is ON (D20). -/
theorem withPixel_getLsbD_same (y : Byte) (c : Color) (v : Byte) :
    (withPixel y c v).getLsbD (bitOf y) = decide (c = .on) := by
  have hmask : (pixelMask y).getLsbD (bitOf y) = true := by simp [pixelMask_getLsbD]
  cases c with
  | off => rw [withPixel, BitVec.getLsbD_and, BitVec.getLsbD_not, hmask]; simp
  | on => rw [withPixel, BitVec.getLsbD_or, hmask, Bool.or_true]; rfl

/-- The pixel set has its colour. -/
theorem colorAt_plotted (x y : Byte) (c : Color) (s : State) : colorAt (plotted x y c s).fb x y = c := by
  rw [colorAt, pixel, read_plotted_same, withPixel_getLsbD_same]
  cases c <;> rfl

/-- Every bit of a byte is that of some row. -/
theorem exists_bitOf_eq {j : Nat} (hj : j < 8) : ∃ y, bitOf y = j := by
  refine ⟨BitVec.ofNat 8 j, ?_⟩
  rw [bitOf, BitVec.toNat_ofNat, Config.rowsPerPage]
  omega

/-- The bits of the other rows stay in the byte written. -/
theorem read_plotted_getLsbD_ne {x y : Byte} {j : Nat} (c : Color) (s : State) (hj : j < 8) (hne : j ≠ bitOf y) :
    (Memory.read (plotted x y c s).fb (linear (pageOf y) x.toNat)).getLsbD j =
      (Memory.read s.fb (linear (pageOf y) x.toNat)).getLsbD j := by
  obtain ⟨y', rfl⟩ := exists_bitOf_eq hj
  rw [read_plotted_same, withPixel_getLsbD_ne c _ hne.symm]

/-- Settles O25: a result `OK` needs an initialised context, and then the one byte written has the new bit. -/
theorem setPixelChangesOnlyItsBit : Obligations.SetPixelChangesOnlyItsBit := by
  intro s t x y c hx hy hs h hok
  cases hi : s.initialized with
  | false =>
    cases (exec_setPixel_uninitialized c hs hi).symm.trans h
    cases hok
  | true =>
    cases (exec_setPixel_accepted c hs hi hx hy).symm.trans h
    exact ⟨colorAt_plotted x y c s, fun _ => read_plotted_getLsbD_ne c s, fun _ => read_plotted_ne c s⟩

end Sys2Proof.Machine
end

section
/-! PROOFS. The software layer: what its routines issue, and what the buffer shows when it has been issued. -/

namespace Sys2Proof.Machine

open Sys2Proof

/-! ## Lists of `SET_PIXEL` operations -/

/-- Every operation is the `SET_PIXEL` of a pixel of the panel in this colour. -/
def PlotsOnPanel (c : Color) (ops : List Instr) : Prop :=
  ∀ i ∈ ops, ∃ x y, i = .setPixel x y c ∧ x.toNat < 128 ∧ y.toNat < 64

theorem plotsOnPanel_nil (c : Color) : PlotsOnPanel c [] := nofun

theorem PlotsOnPanel.append {c : Color} {ops ops' : List Instr} (h : PlotsOnPanel c ops) (h' : PlotsOnPanel c ops') :
    PlotsOnPanel c (ops ++ ops') := fun i hi => (List.mem_append.1 hi).elim (h i) (h' i)

/-- The operation of a point with byte coordinates names these bytes. -/
theorem plotOp_toNat (x y : Byte) (c : Color) : plotOp x.toNat y.toNat c = .setPixel x y c := by simp [plotOp]

/-- The operation of a point of the panel is a `SET_PIXEL` of that point: the coordinates fit in their bytes. -/
theorem exists_plotOp_eq {p q : Nat} (c : Color) (hp : p < 128) (hq : q < 64) :
    ∃ x y : Byte, plotOp p q c = .setPixel x y c ∧ x.toNat = p ∧ y.toNat = q := by
  have hx : (BitVec.ofNat 8 p).toNat = p := Nat.mod_eq_of_lt (by omega)
  have hy : (BitVec.ofNat 8 q).toNat = q := Nat.mod_eq_of_lt (by omega)
  have hplot := plotOp_toNat (BitVec.ofNat 8 p) (BitVec.ofNat 8 q) c
  rw [hx, hy] at hplot
  exact ⟨_, _, hplot, hx, hy⟩

/-- Operations that are those of points of the panel are `SET_PIXEL`s of its pixels. -/
theorem plotsOnPanel_of_plotOp {c : Color} {ops : List Instr}
    (h : ∀ i ∈ ops, ∃ p q : Nat, p < 128 ∧ q < 64 ∧ i = plotOp p q c) : PlotsOnPanel c ops := by
  intro i hi
  obtain ⟨p, q, hp, hq, rfl⟩ := h i hi
  obtain ⟨x, y, heq, hx, hy⟩ := exists_plotOp_eq c hp hq
  exact ⟨x, y, heq, hx ▸ hp, hy ▸ hq⟩

/-! ## Geometry -/

/-- A rectangle's bounds (R129, R122); that its corner is on the panel follows. -/
theorem rectOk_iff (x y w h : Nat) : rectOk x y w h = true ↔ 1 ≤ w ∧ 1 ≤ h ∧ x + w ≤ 128 ∧ y + h ≤ 64 := by
  simp only [rectOk, Bool.and_eq_true, decide_eq_true_eq]
  unfold Config.width Config.height
  omega

/-- The points of a rectangle, rows top to bottom, each left to right (R123). -/
def rectPoints (x y w h : Nat) (c : Color) : List Instr :=
  (List.range h).flatMap fun j => (List.range w).map fun i => plotOp ((x + i : Nat)) ((y + j : Nat)) c

/-- `fill_rect` needs an initialised context and a rectangle of the panel, and issues that rectangle's points. -/
theorem fillRect_eq_some_iff {s : State} {x y w h : Nat} {c : Color} {ops : List Instr} :
    fillRect s x y w h c = some ops ↔
      s.initialized = true ∧ (1 ≤ w ∧ 1 ≤ h ∧ x + w ≤ 128 ∧ y + h ≤ 64) ∧ rectPoints x y w h c = ops := by
  rw [fillRect, Option.ite_none_right_eq_some, Bool.and_eq_true, rectOk_iff, Option.some_inj, and_assoc, rectPoints]

theorem length_rectPoints (x y w h : Nat) (c : Color) : (rectPoints x y w h c).length = w * h := by
  simp [rectPoints, List.length_flatMap, Nat.mul_comm]

theorem mem_rectPoints {x y w h : Nat} {c : Color} {i : Instr} :
    i ∈ rectPoints x y w h c ↔
      ∃ p q : Nat, (x ≤ p ∧ p < x + w) ∧ (y ≤ q ∧ q < y + h) ∧ i = plotOp p q c := by
  simp only [rectPoints, List.mem_flatMap, List.mem_map, List.mem_range]
  constructor
  · rintro ⟨b, hb, a, ha, rfl⟩
    exact ⟨x + a, y + b, by omega, by omega, rfl⟩
  · rintro ⟨p, q, hp, hq, rfl⟩
    exact ⟨q - y, by omega, p - x, by omega, by rw [Nat.add_sub_cancel' hp.1, Nat.add_sub_cancel' hq.1]⟩

theorem rectPoints_plotsOnPanel {x y w h : Nat} (c : Color) (hx : x + w ≤ 128) (hy : y + h ≤ 64) :
    PlotsOnPanel c (rectPoints x y w h c) := by
  refine plotsOnPanel_of_plotOp fun i hi => ?_
  obtain ⟨p, q, hp, hq, rfl⟩ := mem_rectPoints.1 hi
  exact ⟨p, q, by omega, by omega, rfl⟩

/-- The pixels set for a rectangle of the panel are exactly those inside it. -/
theorem setPixel_mem_rectPoints_iff {x y w h : Nat} {c : Color} {px py : Byte} (hx : x + w ≤ 128) (hy : y + h ≤ 64) :
    .setPixel px py c ∈ rectPoints x y w h c ↔
      x ≤ px.toNat ∧ px.toNat < x + w ∧ y ≤ py.toNat ∧ py.toNat < y + h := by
  rw [mem_rectPoints]
  constructor
  · rintro ⟨p, q, hp, hq, heq⟩
    obtain ⟨px', py', heq', rfl, rfl⟩ := exists_plotOp_eq c (p := p) (q := q) (by omega) (by omega)
    cases heq.trans heq'
    exact ⟨hp.1, hp.2, hq⟩
  · rintro ⟨hx0, hx1, hy0, hy1⟩
    exact ⟨px.toNat, py.toNat, ⟨hx0, hx1⟩, ⟨hy0, hy1⟩, (plotOp_toNat px py c).symm⟩

/-- `draw_line` needs an initialised context and both endpoints on the panel (R121). -/
theorem drawLine_plots {s : State} {x0 y0 x1 y1 : Nat} {c : Color} {ops : List Instr}
    (h : drawLine s x0 y0 x1 y1 c = some ops) : s.initialized = true ∧ PlotsOnPanel c ops := by
  simp only [drawLine, Option.ite_none_right_eq_some, Bool.and_eq_true,
    decide_eq_true_eq, Option.some_inj] at h
  obtain ⟨⟨⟨⟨⟨hi, hx0⟩, hx1⟩, hy0⟩, hy1⟩, rfl⟩ := h
  exact ⟨hi, plotsOnPanel_of_plotOp (linePoints_on_panel hx0 hy0 hx1 hy1)⟩

/-- The corners of an accepted rectangle, and so its four sides, are on the panel (R122). -/
theorem drawRectOutline_plots {s : State} {x y w h : Nat} {c : Color} {ops : List Instr}
    (hops : drawRectOutline s x y w h c = some ops) : s.initialized = true ∧ PlotsOnPanel c ops := by
  rw [drawRectOutline, Option.ite_none_right_eq_some, Bool.and_eq_true, rectOk_iff, Option.some_inj] at hops
  obtain ⟨⟨hi, hw, hh, hx, hy⟩, rfl⟩ := hops
  have hside {x0 y0 x1 y1 : Nat} (hx0 : x0 ≤ x + w - 1) (hy0 : y0 ≤ y + h - 1) (hx1 : x1 ≤ x + w - 1)
      (hy1 : y1 ≤ y + h - 1) : PlotsOnPanel c (linePoints x0 y0 x1 y1 c) :=
    plotsOnPanel_of_plotOp (linePoints_on_panel (by omega) (by omega) (by omega) (by omega))
  have hleft : x ≤ x + w - 1 := by omega
  have htop : y ≤ y + h - 1 := by omega
  exact ⟨hi, (((hside hleft htop le_rfl htop).append (hside hleft le_rfl le_rfl le_rfl)).append
    (hside hleft htop hleft le_rfl)).append (hside le_rfl htop le_rfl le_rfl)⟩

theorem fillRect_plots {s : State} {x y w h : Nat} {c : Color} {ops : List Instr}
    (hops : fillRect s x y w h c = some ops) : s.initialized = true ∧ PlotsOnPanel c ops := by
  obtain ⟨hi, ⟨-, -, hx, hy⟩, rfl⟩ := fillRect_eq_some_iff.1 hops
  exact ⟨hi, rectPoints_plotsOnPanel c hx hy⟩

/-! ## Text -/

theorem glyphFits_iff (x y : Nat) (f : Font) : glyphFits x y f = true ↔ x + f.width ≤ 128 ∧ y + f.height ≤ 64 := by
  rw [glyphFits, Bool.and_eq_true, decide_eq_true_eq, decide_eq_true_eq]
  rfl

/-- A glyph whose box is on the panel has its pixels there, whatever its table's entries (R124). -/
theorem glyphPixels_plotsOnPanel {x y : Nat} {f : Font} (ch : Byte) (c : Color) (hfit : glyphFits x y f = true) :
    PlotsOnPanel c (glyphPixels x y ch f c) := by
  obtain ⟨hx, hy⟩ := (glyphFits_iff x y f).1 hfit
  refine plotsOnPanel_of_plotOp fun i hi => ?_
  simp only [glyphPixels, List.mem_flatMap, List.mem_range, List.mem_ite_nil_right, List.mem_singleton] at hi
  obtain ⟨band, hband, col, hcol, r, hr, -, rfl⟩ := hi
  exact ⟨x + col, y + 8 * band + r, by omega, by omega, rfl⟩

theorem drawChar_plots {s : State} {x y : Nat} {ch : Byte} {font : Option Font} {c : Color} {ops : List Instr}
    (h : drawChar s x y ch font c = some ops) : s.initialized = true ∧ PlotsOnPanel c ops := by
  cases font with
  | none => cases h
  | some f =>
    rw [drawChar, Option.ite_none_right_eq_some, Bool.and_eq_true, Option.some_inj] at h
    obtain ⟨⟨hi, hfit⟩, rfl⟩ := h
    exact ⟨hi, glyphPixels_plotsOnPanel ch c hfit⟩

/-- Every glyph a string draws has been found to fit where it goes; the first that does not ends the string (R125). -/
theorem stringLoop_plotsOnPanel (text : List Byte) (x : Nat) (f : Font) (c : Color) :
    ∀ cx cy, PlotsOnPanel c (stringLoop text x f c cx cy) := by
  induction text with
  | nil => exact fun _ _ => plotsOnPanel_nil c
  | cons ch rest ih =>
    intro cx cy
    have hglyph (gx gy : Nat) : PlotsOnPanel c
        (if glyphFits gx gy f then glyphPixels gx gy ch f c ++ stringLoop rest x f c (gx + f.width) gy else []) := by
      split
      · next hfit => exact (glyphPixels_plotsOnPanel ch c hfit).append (ih _ _)
      · exact plotsOnPanel_nil c
    rw [stringLoop]
    split
    · exact ih _ _
    · exact hglyph _ _

theorem drawString_plots {s : State} {x y : Nat} {text : List Byte} {font : Option Font} {c : Color}
    {ops : List Instr} (h : drawString s x y text font c = some ops) : s.initialized = true ∧ PlotsOnPanel c ops := by
  cases font with
  | none => cases h
  | some f =>
    rw [drawString, Option.ite_none_right_eq_some, Option.some_inj] at h
    obtain ⟨hi, rfl⟩ := h
    exact ⟨hi, stringLoop_plotsOnPanel text x f c x y⟩

/-- Settles O60, routine by routine; the two numbers are drawn as strings (R126, R127). -/
theorem softwareIssuesOnlySetPixel : Obligations.SoftwareIssuesOnlySetPixel := by
  rintro s ops c (⟨x0, y0, x1, y1, h⟩ | ⟨x, y, w, ht, h⟩ | ⟨x, y, w, ht, h⟩ | ⟨x, y, ch, f, h⟩ | ⟨x, y, text, f, h⟩ |
    ⟨x, y, v, f, h⟩ | ⟨x, y, v, f, h⟩)
  · exact drawLine_plots h
  · exact drawRectOutline_plots h
  · exact fillRect_plots h
  · exact drawChar_plots h
  · exact drawString_plots h
  · exact drawString_plots (text := decimal v.toNat) h
  · exact drawString_plots (text := signedDecimal v.toInt) h

/-! ## Issuing a list of `SET_PIXEL` operations -/

/-- What a list of operations does that sets pixels to the colour `c` and nothing else. -/
structure Painted (c : Color) (ops : List Instr) (s t : State) : Prop where
  ready : Ready t
  trace : t.trace = s.trace
  context : SameContext s t
  /-- A pixel of the panel has the colour where the list sets it, and else its old one. -/
  pixels : ∀ px py : Byte, px.toNat < 128 → py.toNat < 64 →
    colorAt t.fb px py = if .setPixel px py c ∈ ops then c else colorAt s.fb px py

/-- Issuing nothing paints nothing. -/
theorem painted_nil (c : Color) {s : State} (hs : Ready s) : Painted c [] s s :=
  ⟨hs, rfl, ⟨rfl, rfl, rfl, rfl, rfl⟩, by simp⟩

/-- One accepted `SET_PIXEL` paints its pixel (R113). -/
theorem painted_setPixel {s : State} {x y : Byte} (c : Color) (hs : Ready s) (hi : s.initialized = true)
    (hx : x.toNat < 128) (hy : y.toNat < 64) :
    Painted c [.setPixel x y c] s (onlyResult .ok (plotted x y c s)) := by
  refine ⟨hs, rfl, ⟨rfl, rfl, rfl, rfl, rfl⟩, fun px py hpx hpy => ?_⟩
  by_cases heq : x = px ∧ y = py
  · obtain ⟨rfl, rfl⟩ := heq
    exact (colorAt_plotted x y c s).trans (if_pos (List.mem_singleton_self _)).symm
  · have hpixel := otherPixelsKeepTheirColor s _ x y px py c hx hy hpx hpy (not_and_or.1 heq) hs
      (exec_setPixel_accepted c hs hi hx hy)
    have hmem : Instr.setPixel px py c ∉ [Instr.setPixel x y c] := by simpa [eq_comm] using heq
    rw [if_neg hmem, colorAt, hpixel, colorAt]

/-- Painting one list after another paints both. -/
theorem Painted.append {c : Color} {ops ops' : List Instr} {s t u : State} (h : Painted c ops s t)
    (h' : Painted c ops' t u) : Painted c (ops ++ ops') s u := by
  obtain ⟨-, htrace, ⟨hi, ha, hh, htp, htm⟩, hcolor⟩ := h
  obtain ⟨hready, htrace', ⟨hi', ha', hh', htp', htm'⟩, hcolor'⟩ := h'
  refine ⟨hready, htrace'.trans htrace,
    ⟨hi'.trans hi, ha'.trans ha, hh'.trans hh, htp'.trans htp, htm'.trans htm⟩, fun px py hpx hpy => ?_⟩
  rw [hcolor' px py hpx hpy, hcolor px py hpx hpy]
  by_cases hmem : Instr.setPixel px py c ∈ ops' <;> simp [hmem]

/-- `SET_PIXEL`s of pixels of the panel, issued with an initialised context, all succeed and paint their pixels. -/
theorem issueAll_paints {c : Color} {ops : List Instr} :
    ∀ {s : State}, Ready s → s.initialized = true → PlotsOnPanel c ops →
      ∃ t, issueAll ops s = .next t ∧ Painted c ops s t := by
  induction ops with
  | nil => exact fun hs _ _ => ⟨_, rfl, painted_nil c hs⟩
  | cons i rest ih =>
    intro s hs hi hops
    obtain ⟨⟨x, y, rfl, hx, hy⟩, hrest⟩ := List.forall_mem_cons.1 hops
    have hfirst := painted_setPixel c hs hi hx hy
    obtain ⟨t, ht, hpaint⟩ := ih hfirst.ready (hfirst.context.1.trans hi) hrest
    refine ⟨t, ?_, hfirst.append hpaint⟩
    rw [issueAll, exec_setPixel_accepted c hs hi hx hy]
    exact ht

/-- Settles O59: the rectangle's points are `SET_PIXEL`s of pixels of the panel, and a pixel is among them exactly
where it lies in the rectangle. -/
theorem fillRectFillsItsRectangle : Obligations.FillRectFillsItsRectangle := by
  refine fun s x y w h c hs => ⟨fun hi hw hh hx hy => ?_, fun hfail => ?_⟩
  · have hplots := rectPoints_plotsOnPanel c hx hy
    obtain ⟨t, ht, hpaint⟩ := issueAll_paints hs hi hplots
    refine ⟨_, t, fillRect_eq_some_iff.2 ⟨hi, ⟨hw, hh, hx, hy⟩, rfl⟩, length_rectPoints x y w h c, fun i hmem => ?_, ht,
      hpaint.trace, hpaint.context, fun px py hpx hpy => ?_⟩
    · obtain ⟨px, py, heq, -⟩ := hplots i hmem
      exact ⟨px, py, heq⟩
    · rw [hpaint.pixels px py hpx hpy, ← setPixel_mem_rectPoints_iff (c := c) hx hy]
      exact ⟨fun hin => if_pos hin, fun hout => if_neg hout⟩
  · refine Option.eq_none_iff_forall_ne_some.2 fun ops hops => ?_
    obtain ⟨hi, hbounds, -⟩ := fillRect_eq_some_iff.1 hops
    rcases hfail with hfail | hfail
    · cases hi.symm.trans hfail
    · omega

end Sys2Proof.Machine
end

section
/-! PROOFS. The flush: its action list, its run, how it can end, and what it sends. -/

namespace Sys2Proof.Machine

open Sys2Proof

/-! ## The action list of the flush -/

theorem getElem?_flatMap_range {α : Type} {f : Nat → List α} {m : Nat} (hf : ∀ i, (f i).length = m) {n k : Nat}
    (hk : k < m * n) : ((List.range n).flatMap f)[k]? = (f (k / m))[k % m]? := by
  induction n with
  | zero => simp at hk
  | succ n ih =>
    have hlen : ((List.range n).flatMap f).length = m * n := by simp [List.length_flatMap, hf, Nat.mul_comm]
    rw [List.range_succ, List.flatMap_append, List.flatMap_singleton]
    rcases Nat.lt_or_ge k (m * n) with hlt | hge
    · rw [List.getElem?_append_left (by omega), ih hlt]
    · obtain ⟨j, rfl⟩ := Nat.exists_eq_add_of_le hge
      have hj : j < m := by rw [Nat.mul_succ] at hk; omega
      rw [List.getElem?_append_right (by omega), hlen, Nat.add_sub_cancel_left, Nat.mul_add_div (by omega),
        Nat.div_eq_of_lt hj, Nat.mul_add_mod, Nat.mod_eq_of_lt hj, Nat.add_zero]

/-- Action `k` of the flush is action `k % 7` of page `k / 7` (43_flush.md R149). -/
theorem actions_flush_getElem? (p : Config.Params) {k : Nat} (hk : k < 56) :
    (actions p .updateDisplay)[k]? = (pageActions p (k / 7))[k % 7]? :=
  getElem?_flatMap_range (f := pageActions p) (m := 7) (n := 8) (fun _ => rfl) hk

/-- The seven actions of a page are the requests of R142. -/
theorem pageActions_request (s : State) (n : Nat) {j : Nat} (hj : j < 7) :
    ∃ a, (pageActions s.params n)[j]? = some a ∧
      requestOf a s = some (.write (pageTransaction s n j).1 (pageTransaction s n j).2) := by
  match j, hj with
  | 0, _ | 1, _ | 2, _ | 3, _ | 4, _ | 5, _ | 6, _ => exact ⟨_, rfl, rfl⟩

/-- Action `k` of the flush is the request of transaction `k`. -/
theorem actions_flush_request (s : State) {k : Nat} (hk : k < 56) :
    ∃ a, (actions s.params .updateDisplay)[k]? = some a ∧ requestOf a s = some (flushRequest s k) := by
  rw [actions_flush_getElem? s.params hk]
  exact pageActions_request s (k / 7) (Nat.mod_lt k (by decide))

/-- Settles O9: a step at a request (`step_at_request`) whose request is transaction `k`. -/
theorem flushStepIsOnePageAction : Obligations.FlushStepIsOnePageAction := by
  intro s k hrst hr hq hk
  obtain ⟨a, ha, hreq⟩ := actions_flush_request s (Nat.lt_succ_of_le hk)
  have hlen := actions_length_flush s.params
  obtain ⟨hwrite, -⟩ := stepAtARequest s .updateDisplay k a _ _ hrst hq ha hreq (.inl ⟨hr, rfl⟩)
  obtain ⟨hwait, herr, hok⟩ := hwrite _ _ rfl
  refine ⟨by omega, fun e rest hans => ?_, fun rest hans hlast => ?_, fun rest hans hmore => ?_, ?_⟩
  · obtain ⟨t, ht, hend, hrest, -, htrace, hbuf, hctx, -⟩ := herr e rest hans
    exact ⟨t, ht, hend, hrest, htrace, hbuf, hctx⟩
  · obtain ⟨t, ht, ⟨-, hdone⟩, hrest, -, htrace, hbuf, -⟩ := hok rest hans
    obtain ⟨hend, hctx⟩ := hdone (by omega)
    exact ⟨t, ht, hend, hrest, htrace, hbuf, hctx⟩
  · obtain ⟨t, ht, ⟨hnext, -⟩, hrest, -, htrace, hbuf, -⟩ := hok rest hans
    obtain ⟨hq', hr', hres, hresp, hctx⟩ := hnext (by omega)
    exact ⟨t, ht, hq', hr', hrest, hres, hresp, htrace, hbuf, hctx⟩
  · rintro waiting rfl
    refine ⟨hwait, fun late => ?_⟩
    rw [step_at_request (s := { s with answers := late }) hrst hq ha hreq (.inl ⟨hr, rfl⟩)]
    exact step_at_request (s := { s with
      trace := s.trace ++ [flushEvent s k], request := some (flushRequest s k), answers := late })
      hrst hq ha hreq (.inr ⟨rfl, rfl⟩)

/-! ## The run of the flush -/

/-- The channel of the last of the first `k` transactions. -/
def flushChannel (s : State) : Nat → Selector
  | 0 => s.channel
  | k + 1 => (pageTransaction s (k / 7) (k % 7)).1

/-- The panel when it has taken the first `k` transactions (20_memory.md R49). -/
def flushPanel (s : State) : Nat → Panel
  | 0 => s.panel
  | k + 1 => (flushPanel s k).take (pageTransaction s (k / 7) (k % 7)).1 (pageTransaction s (k / 7) (k % 7)).2

/-- A flush of `s` that stands at action `k`, the transactions before it answered `OK`. -/
def flushed (k : Nat) (rest : List Answer) (s : State) : State :=
  { s with
    seq := .run .updateDisplay k
    answers := rest
    trace := s.trace ++ flushEvents s k
    channel := flushChannel s k
    panel := flushPanel s k }

theorem flushEvents_succ (s : State) (k : Nat) : flushEvents s (k + 1) = flushEvents s k ++ [flushEvent s k] := by
  rw [flushEvents, List.range_succ, List.map_append]
  rfl

/-- The flush waiting for the answer to transaction `k`. -/
def flushWaiting (k : Nat) (rest : List Answer) (s : State) : State :=
  issue (flushRequest s k) (flushed k rest s)

/-- The flush ended by the failure of transaction `k`. -/
def flushFailed (k : Nat) (e : IoErr) (rest : List Answer) (s : State) : State :=
  finish (.ioError e) (tear (pageTransaction s (k / 7) (k % 7)).1 (pageTransaction s (k / 7) (k % 7)).2
    (takeAnswer rest (flushWaiting k (.err e :: rest) s)))

section
variable {s : State} {k : Nat} {e : IoErr} {rest : List Answer}

theorem seqStep_flushed (hr : s.request = none) (hk : k < 56) :
    seqStep (flushed k rest s) =
      .next (settle .updateDisplay k (flushRequest s k) (flushWaiting k rest s)) := by
  obtain ⟨a, ha, hreq⟩ := actions_flush_request (flushed k rest s) hk
  rw [seqStep_action (s := flushed k rest s) rfl hr ha, startAction_request _ _ hreq]
  rfl

/-- Transaction `k` answered `OK` has been made. -/
theorem deliver_flushWaiting (hr : s.request = none) :
    setSeq (.run .updateDisplay (k + 1)) (deliver (pageTransaction s (k / 7) (k % 7)).1
      (pageTransaction s (k / 7) (k % 7)).2 (takeAnswer rest (flushWaiting k (.ok :: rest) s))) =
      flushed (k + 1) rest s := by
  cases s
  cases hr
  simp only [flushed, flushEvents_succ, ← List.append_assoc]
  rfl

theorem seqStep_flushed_ok (hr : s.request = none) (hk : k < 55) :
    seqStep (flushed k (.ok :: rest) s) = .next (flushed (k + 1) rest s) := by
  rw [seqStep_flushed hr (by omega), flushRequest, settle_write_ok (rest := rest) _ _ _ _ rfl,
    completeAction_more _ (show k + 1 < 56 by omega), deliver_flushWaiting hr]

theorem finish_setSeq (r : Result) (q : Seq) (s : State) : finish r (setSeq q s) = finish r s := rfl

theorem seqStep_flushed_last (hr : s.request = none) :
    seqStep (flushed 55 (.ok :: rest) s) = .next (finish .ok (flushed 56 rest s)) := by
  rw [seqStep_flushed hr (by decide), flushRequest, settle_write_ok (rest := rest) _ _ _ _ rfl,
    completeAction_last _ (show 56 ≤ 55 + 1 from le_rfl), ← deliver_flushWaiting hr, finish_setSeq]
  rfl

theorem seqStep_flushed_err (hr : s.request = none) (hk : k < 56) :
    seqStep (flushed k (.err e :: rest) s) = .next (flushFailed k e rest s) := by
  rw [seqStep_flushed hr hk, flushRequest, settle_write_err (e := e) (rest := rest) _ _ _ _ rfl]
  rfl

theorem seqStep_flushed_none (hr : s.request = none) (hk : k < 56) :
    seqStep (flushed k [] s) = .next (flushWaiting k [] s) := by
  rw [seqStep_flushed hr hk, flushRequest, settle_write_none _ _ _ _ rfl]

/-- The first `k` transactions answered `OK`: the flush runs on behind them. -/
theorem exec_flush (hs : Ready s) (hi : s.initialized = true) (hk : k < 56)
    (hans : s.answers = List.replicate k .ok ++ rest) :
    exec .updateDisplay s = drive (56 - k) (flushed k rest s) := by
  induction k generalizing rest with
  | zero =>
    have hstart : setSeq (.run .updateDisplay 0) s = flushed 0 rest s := by
      cases s
      cases hans
      simp [flushed, flushEvents, flushChannel, flushPanel, setSeq]
    rw [exec_host rfl, runOperation_accepted (op := .updateDisplay) hs.1 hs.2 hi, hstart]
    rfl
  | succ k ih =>
    have hans' : s.answers = List.replicate k .ok ++ .ok :: rest := by
      rw [hans, List.replicate_succ', List.append_assoc]
      rfl
    rw [ih (by omega) hans', show 56 - k = 56 - (k + 1) + 1 by omega]
    exact drive_go (seqStep_flushed_ok hs.2 (by omega)) (by simp [settled, flushed, Seq.isIdle, hs.2])

theorem exec_flush_stops {t : State} (hs : Ready s) (hi : s.initialized = true) (hk : k < 56)
    (hans : s.answers = List.replicate k .ok ++ rest) (h : seqStep (flushed k rest s) = .next t)
    (ht : settled t = true) : exec .updateDisplay s = .next t := by
  rw [exec_flush hs hi hk hans, show 56 - k = 55 - k + 1 by omega]
  exact drive_stop h ht

/-- Every write answered `OK` (R142). -/
theorem exec_flush_ok (hs : Ready s) (hi : s.initialized = true)
    (hans : s.answers = List.replicate 56 .ok ++ rest) :
    exec .updateDisplay s = .next (finish .ok (flushed 56 rest s)) := by
  rw [List.replicate_succ', List.append_assoc] at hans
  exact exec_flush_stops hs hi (k := 55) (by decide) hans (seqStep_flushed_last hs.2) rfl

/-- Write `k` the first answered with an error (R143). -/
theorem exec_flush_err (hs : Ready s) (hi : s.initialized = true) (hk : k < 56)
    (hans : s.answers = List.replicate k .ok ++ .err e :: rest) :
    exec .updateDisplay s = .next (flushFailed k e rest s) :=
  exec_flush_stops hs hi hk hans (seqStep_flushed_err hs.2 hk) rfl

/-- Write `k` the first not answered (60_exceptions.md R177). -/
theorem exec_flush_none (hs : Ready s) (hi : s.initialized = true) (hk : k < 56)
    (hans : s.answers = List.replicate k .ok) :
    exec .updateDisplay s = .next (flushWaiting k [] s) :=
  exec_flush_stops hs hi hk (by rw [hans, List.append_nil]) (seqStep_flushed_none hs.2 hk) rfl

end

/-- The answers to `n` writes: `OK` to all, or `OK` up to the first error, or `OK` as far as there are answers. -/
theorem answers_cases (n : Nat) (l : List Answer) :
    (∃ rest, l = List.replicate n .ok ++ rest) ∨
    (∃ k e rest, k < n ∧ l = List.replicate k .ok ++ .err e :: rest) ∨
    (∃ k, k < n ∧ l = List.replicate k .ok) := by
  induction n generalizing l with
  | zero => exact .inl ⟨l, rfl⟩
  | succ n ih =>
    rcases l with _ | ⟨_ | e, l⟩
    · exact .inr (.inr ⟨0, n.succ_pos, rfl⟩)
    · rcases ih l with ⟨rest, rfl⟩ | ⟨k, e, rest, hk, rfl⟩ | ⟨k, hk, rfl⟩
      · exact .inl ⟨rest, rfl⟩
      · exact .inr (.inl ⟨k + 1, e, rest, Nat.succ_lt_succ hk, rfl⟩)
      · exact .inr (.inr ⟨k + 1, Nat.succ_lt_succ hk, rfl⟩)
    · exact .inr (.inl ⟨0, e, l, n.succ_pos, rfl⟩)

/-- Every way a flush of an initialised context can go: it ends with `OK`, or at its first failed write, or waits. -/
theorem exec_flush_cases {s t : State} (hs : Ready s) (hi : s.initialized = true)
    (h : exec .updateDisplay s = .next t) :
    (∃ rest, t = finish .ok (flushed 56 rest s)) ∨
    (∃ k e rest, k < 56 ∧ s.answers = List.replicate k .ok ++ .err e :: rest ∧ t = flushFailed k e rest s) ∨
    (∃ k, k < 56 ∧ t = flushWaiting k [] s) := by
  rcases answers_cases 56 s.answers with ⟨rest, hans⟩ | ⟨k, e, rest, hk, hans⟩ | ⟨k, hk, hans⟩
  · cases (exec_flush_ok hs hi hans).symm.trans h
    exact .inl ⟨rest, rfl⟩
  · cases (exec_flush_err hs hi hk hans).symm.trans h
    exact .inr (.inl ⟨k, e, rest, hk, hans, rfl⟩)
  · cases (exec_flush_none hs hi hk hans).symm.trans h
    exact .inr (.inr ⟨k, hk, rfl⟩)

/-! ## What the flush leaves -/

/-- What a flush leaves, however it ends or waits (R146). -/
def SameBlock (s t : State) : Prop :=
  SameBuffer s t ∧ SameContext s t ∧ t.delaysDone = s.delaysDone ∧ SameInputs s t

theorem sameBlock_refl (s : State) : SameBlock s s :=
  ⟨fun _ => rfl, ⟨rfl, rfl, rfl, rfl, rfl⟩, rfl, rfl, rfl, rfl, rfl⟩

theorem sameBlock_flushed (k : Nat) (rest : List Answer) (s : State) : SameBlock s (flushed k rest s) :=
  ⟨fun _ => rfl, ⟨rfl, rfl, rfl, rfl, rfl⟩, rfl, rfl, rfl, rfl, rfl⟩

theorem sameBlock_finish {s u : State} (r : Result) (h : SameBlock s u) : SameBlock s (finish r u) := h

theorem sameBlock_flushWaiting (k : Nat) (rest : List Answer) (s : State) : SameBlock s (flushWaiting k rest s) :=
  ⟨fun _ => rfl, ⟨rfl, rfl, rfl, rfl, rfl⟩, rfl, rfl, rfl, rfl, rfl⟩

theorem sameBlock_flushFailed (k : Nat) (e : IoErr) (rest : List Answer) (s : State) :
    SameBlock s (flushFailed k e rest s) := by
  simpa [SameBlock, SameBuffer, SameContext, SameInputs, flushFailed] using
    sameBlock_flushWaiting k (.err e :: rest) s

/-- With a request outstanding in `IDLE` an operation that is accepted waits at its first action. -/
theorem runOperation_waiting {op : Operation} {s : State} (hq : s.seq = .idle) (hr : s.request ≠ none)
    (ha : argsOk op s = true) : runOperation op s = .next (setSeq (.run op 0) s) := by
  simp [runOperation, hq, accept, ha, settled, Option.isSome_iff_ne_none, hr]

/-- Settles O32: a flush that is held off or refused, or waits on an earlier request, changes none of these;
`exec_flush_cases` gives the others. -/
theorem flushLeavesTheBlockUnchanged : Obligations.FlushLeavesTheBlockUnchanged := by
  intro s t h
  cases hq : s.seq with
  | run op k =>
    cases (runOperation_busy (op := .updateDisplay) hq).symm.trans h
    exact sameBlock_refl s
  | idle =>
    cases hi : s.initialized with
    | false =>
      cases (runOperation_invalid (op := .updateDisplay) hq hi).symm.trans h
      exact sameBlock_finish _ (sameBlock_refl s)
    | true =>
      by_cases hr : s.request = none
      · rcases exec_flush_cases ⟨hq, hr⟩ hi h with ⟨rest, rfl⟩ | ⟨k, e, rest, -, -, rfl⟩ | ⟨k, -, rfl⟩
        · exact sameBlock_finish .ok (sameBlock_flushed 56 rest s)
        · exact sameBlock_flushFailed k e rest s
        · exact sameBlock_flushWaiting k [] s
      · cases (runOperation_waiting (op := .updateDisplay) hq hr hi).symm.trans h
        exact sameBlock_refl s

/-- The 56 transactions, page by page (R142). -/
theorem flushEvents_all (s : State) :
    flushEvents s 56 = (List.range 8).flatMap fun p => (List.range 7).map fun j =>
      Event.write s.busHandle s.busAddr (pageTransaction s p j).1 (pageTransaction s p j).2 := rfl

/-- Settles O29: `exec_flush_ok`. -/
theorem flushSendsEveryPage : Obligations.FlushSendsEveryPage := by
  intro s rest hs hi hans
  obtain ⟨hbuf, hctx, hdelays, hin⟩ := sameBlock_flushed 56 rest s
  exact ⟨_, exec_flush_ok hs hi hans, ⟨rfl, rfl, rfl, rfl⟩, congrArg (s.trace ++ ·) (flushEvents_all s), rfl, hdelays,
    hbuf, hctx, hin⟩

/-! ## Counting transactions -/

/-- The first six transactions of a page are one byte each on the command channel, the seventh is 128 bytes on the data
channel. -/
theorem pageTransaction_cases (s : State) (n j : Nat) :
    (j < 6 ∧ (pageTransaction s n j).1 = .cmd ∧ (pageTransaction s n j).2.length = 1) ∨
    (¬ j < 6 ∧ (pageTransaction s n j).1 = .data ∧ (pageTransaction s n j).2.length = 128) := by
  match j with
  | 0 | 1 | 2 | 3 | 4 | 5 => exact .inl ⟨by decide, rfl, rfl⟩
  | j + 6 => exact .inr ⟨by omega, rfl, by simp [pageTransaction]⟩

theorem flushEvent_isOn (s : State) (k : Nat) (sel : Selector) :
    (flushEvent s k).isOn sel = ((if k % 7 < 6 then .cmd else .data) == sel) := by
  show ((pageTransaction s (k / 7) (k % 7)).1 == sel) = _
  rcases pageTransaction_cases s (k / 7) (k % 7) with ⟨hj, hsel, -⟩ | ⟨hj, hsel, -⟩
  · rw [hsel, if_pos hj]
  · rw [hsel, if_neg hj]

theorem flushEvent_bytes_length (s : State) (k : Nat) :
    (flushEvent s k).bytes.length = if k % 7 < 6 then 1 else 128 := by
  rcases pageTransaction_cases s (k / 7) (k % 7) with ⟨hj, -, hlen⟩ | ⟨hj, -, hlen⟩
  · exact hlen.trans (if_pos hj).symm
  · exact hlen.trans (if_neg hj).symm

/-- How many of the first `n` transactions are on a channel. -/
theorem length_filter_flushEvents (s : State) (n : Nat) (sel : Selector) :
    ((flushEvents s n).filter (Event.isOn sel)).length =
      ((List.range n).filter fun k => (if k % 7 < 6 then Selector.cmd else .data) == sel).length := by
  rw [flushEvents, List.filter_map, List.length_map]
  exact congrArg (fun f => ((List.range n).filter f).length) (funext fun k => flushEvent_isOn s k sel)

/-- A transaction's bytes are one on the command channel and 128 on the data channel (30_encoding.md R74). -/
theorem flushEvents_lengthOk {s : State} {n : Nat} {ev : Event} (h : ev ∈ flushEvents s n) : ev.lengthOk = true := by
  obtain ⟨k, -, rfl⟩ := List.mem_map.mp h
  rcases pageTransaction_cases s (k / 7) (k % 7) with ⟨-, hsel, hlen⟩ | ⟨-, hsel, hlen⟩
  · simp [flushEvent, flushRequest, eventOf, Event.lengthOk, hsel, hlen]
  · simp [flushEvent, flushRequest, eventOf, Event.lengthOk, hsel, hlen]

@[simp] theorem flushEvents_length (s : State) (n : Nat) : (flushEvents s n).length = n := by simp [flushEvents]

theorem flushFailed_trace (k : Nat) (e : IoErr) (rest : List Answer) (s : State) :
    (flushFailed k e rest s).trace = s.trace ++ flushEvents s (k + 1) := by
  rw [flushEvents_succ, ← List.append_assoc]
  rfl

/-- Settles O31: `exec_flush_err`; of the first 35 transactions every seventh is on the data channel. -/
theorem flushAbortsOnTheFirstFailure : Obligations.FlushAbortsOnTheFirstFailure := by
  refine ⟨fun s j e rest hs hi hj hans => ?_, fun s => ⟨?_, ?_⟩⟩
  · obtain ⟨hbuf, hctx, hdelays, hin⟩ := sameBlock_flushFailed j e rest s
    exact ⟨_, exec_flush_err hs hi hj hans, ⟨rfl, rfl, rfl, rfl⟩, flushFailed_trace j e rest s, rfl, hdelays, hbuf,
      hctx, hin⟩
  · rw [length_filter_flushEvents]
    decide
  · rw [length_filter_flushEvents]
    decide

theorem flushEvents_no_delay (s : State) (n : Nat) : (flushEvents s n).all (fun ev => !ev.isDelay) = true := by
  simp [flushEvents, flushEvent, flushRequest, eventOf, Event.isDelay]

/-- What the 56 transactions are, by number, channel and length (R145). -/
theorem flushEvents_counts (s : State) :
    (flushEvents s 56).length = 56 ∧
      (∀ k, k < 56 → (flushEvents s 56)[k]? = some (flushEvent s k)) ∧
      ((flushEvents s 56).filter (Event.isOn .cmd)).length = 48 ∧
      (∀ ev ∈ flushEvents s 56, ev.isOn .cmd = true → ev.bytes.length = 1) ∧
      ((flushEvents s 56).filter (Event.isOn .data)).length = 8 ∧
      (∀ ev ∈ flushEvents s 56, ev.isOn .data = true → ev.bytes.length = 128) ∧
      ((flushEvents s 56).map fun ev => ev.bytes.length).sum = 1072 := by
  refine ⟨flushEvents_length s 56, fun k hk => by simp [flushEvents, hk], ?_, fun ev hev => ?_, ?_,
    fun ev hev => ?_, ?_⟩
  · rw [length_filter_flushEvents]
    decide
  · exact (ev.lengthOk_iff.1 (flushEvents_lengthOk hev)).1
  · rw [length_filter_flushEvents]
    decide
  · exact (ev.lengthOk_iff.1 (flushEvents_lengthOk hev)).2
  · have hlen : (fun ev : Event => ev.bytes.length) ∘ flushEvent s = fun k => if k % 7 < 6 then 1 else 128 :=
      funext (flushEvent_bytes_length s)
    rw [flushEvents, List.map_map, hlen]
    decide

/-- Settles O30: a refused flush has sent nothing, and `exec_flush_cases` gives what the others have. -/
theorem flushCountingLaw : Obligations.FlushCountingLaw := by
  intro s t hs h hend
  cases hi : s.initialized with
  | false =>
    cases (exec_invalid (op := .updateDisplay) rfl hs hi).symm.trans h
    exact ⟨[], by simp [onlyResult], rfl, nofun, nofun, fun _ => rfl⟩
  | true =>
    rcases exec_flush_cases hs hi h with ⟨rest, rfl⟩ | ⟨k, e, rest, hk, hans, rfl⟩ | ⟨k, -, rfl⟩
    · exact ⟨flushEvents s 56, rfl, flushEvents_no_delay s 56, fun _ => flushEvents_counts s, nofun, nofun⟩
    · refine ⟨flushEvents s (k + 1), ?_, flushEvents_no_delay s (k + 1), nofun, ?_, nofun⟩
      · exact flushFailed_trace k e rest s
      · rintro e' he
        cases he
        exact ⟨by simp, by simpa using hk, rest, by simpa using hans⟩
    · cases hend

end Sys2Proof.Machine
end

section
/-! PROOFS. What a flush leaves on the panel. -/

namespace Sys2Proof.Machine

open Sys2Proof

/-! ## Commands that are not finished -/

/-- A command is held until its last byte has come. -/
theorem Panel.foldl_cmdByte_take {i : Instr} {q : Panel} {n : Nat} (hi : layerOf i = .panelCommand)
    (hq : q.pending = []) (hpos : 0 < n) (hn : n < (encode i).length) :
    ((encode i).take n).foldl Panel.cmdByte q = { q with pending := (encode i).take n } := by
  rcases encode_panel_cases hi with ⟨op, he⟩ | ⟨op, v, he, h1⟩ | ⟨op, a, b, he, h1, h2⟩ <;> rw [he] at hn ⊢
  · exact absurd hn (Nat.not_lt.mpr hpos)
  · obtain rfl : n = 1 := Nat.le_antisymm (Nat.le_of_lt_succ hn) hpos
    simpa [Panel.cmdByte, hq] using Panel.received_truncated q h1
  · have hop : q.cmdByte op = { q with pending := [op] } := by
      simpa [Panel.cmdByte, hq] using Panel.received_truncated q h1
    rcases Nat.lt_or_ge n 2 with hlt | hge
    · obtain rfl : n = 1 := Nat.le_antisymm (Nat.le_of_lt_succ hlt) hpos
      exact hop
    · obtain rfl : n = 2 := Nat.le_antisymm (Nat.le_of_lt_succ hn) hge
      show (q.cmdByte op).cmdByte a = _
      rw [hop]
      exact Panel.received_truncated _ h2

/-- No beginning of a command changes the display memory. -/
theorem Panel.foldl_cmdByte_take_ram {i : Instr} {q : Panel} (n : Nat) (hi : layerOf i = .panelCommand)
    (hq : q.pending = []) : (((encode i).take n).foldl Panel.cmdByte q).ram = q.ram := by
  rcases Nat.eq_zero_or_pos n with rfl | hpos
  · rfl
  · rcases Nat.lt_or_ge n (encode i).length with hlt | hge
    · rw [Panel.foldl_cmdByte_take hi hq hpos hlt]
    · rw [List.take_of_length_le hge, Panel.foldl_cmdByte_encode hi hq, Panel.effect_ram]

/-- No beginning of a list of commands changes the display memory. -/
theorem Panel.take_cmd_take_ram {is : List Instr} {q : Panel} (n : Nat) (his : ∀ i ∈ is, layerOf i = .panelCommand)
    (hq : q.pending = []) : (q.take .cmd ((is.flatMap encode).take n)).ram = q.ram := by
  induction is generalizing q n with
  | nil => simp [Panel.take]
  | cons i more ih =>
    have hi := his i List.mem_cons_self
    rw [List.flatMap_cons, List.take_append, Panel.take_cmd_append]
    rcases Nat.le_total n (encode i).length with hle | hge
    · rw [Nat.sub_eq_zero_of_le hle, List.take_zero]
      exact Panel.foldl_cmdByte_take_ram n hi hq
    · have hwhole : q.take .cmd ((encode i).take n) = Panel.effect i q := by
        rw [List.take_of_length_le hge]
        exact Panel.foldl_cmdByte_encode hi hq
      rw [hwhole, ih _ (fun j hj => his j (List.mem_cons_of_mem i hj)) (by rw [Panel.effect_pending, hq]),
        Panel.effect_ram]

/-- No beginning of the cursor-set pair changes the display memory (30_encoding.md R77). -/
theorem Panel.take_cursorSet_take_ram {q : Panel} (p j : Nat) (hq : q.pending = []) :
    (q.take .cmd ((Config.cursorSet Config.params p).take j)).ram = q.ram :=
  Panel.take_cmd_take_ram (is := [.panelSetColRange 0x00 0x7F, .panelSetPageRange (BitVec.ofNat 8 p) 0x07]) j
    (by simp [layerOf]) hq

/-! ## Failed writes -/

/-- What received bytes do to the display memory does not depend on the count of draws. -/
theorem Panel.received_ram_draws (bs : List Byte) (q : Panel) (d : Nat) :
    (Panel.received bs { q with draws := d }).ram = (q.received bs).ram := by
  unfold Panel.received
  cases decodePanel bs with
  | instr i rest => simp only [Panel.effect_ram]
  | reject why => cases why <;> rfl

/-- A failed write of a command byte that leaves the display memory when it is taken leaves it. -/
theorem Panel.torn_cmd_ram {q : Panel} {b : Byte} (h : (q.cmdByte b).ram = q.ram) :
    (q.torn .cmd [b]).ram = q.ram := by
  show (q.tornCmdByte b).interrupted.ram = q.ram
  rw [Panel.interrupted_ram, Panel.tornCmdByte]
  split
  · exact (Panel.received_ram_draws (q.pending ++ [b]) q (q.draws + 1)).trans h
  · rfl

/-- The place of a byte that may have been lost moves the cursor as the byte would. -/
theorem Panel.smearByte_eq (q : Panel) (v : Byte) :
    q.smearByte v = { q.dataByte v with ram := (q.smearByte v).ram } := by
  unfold Panel.smearByte Panel.dataByte Panel.store Panel.advance
  split_ifs <;> rfl

theorem Panel.WritesAt.next_smear {q : Panel} {p c : Nat} (h : q.WritesAt p c) (hp : p < 8) (hc : c < 127) (v : Byte) :
    (q.smearByte v).WritesAt p (c + 1) := by
  obtain ⟨hmode, hpage, hcol, hcolHi⟩ := h.next hp hc v
  rw [Panel.smearByte_eq]
  exact ⟨hmode, hpage, hcol, hcolHi⟩

/-- A byte that may have been lost leaves every other page. -/
theorem Panel.WritesAt.byteAt_smearByte {q : Panel} {p c p' c' : Nat} (h : q.WritesAt p c) (hp : p < 8) (hc : c < 128)
    (v : Byte) (hc' : c' < 128) (hne : p' ≠ p) : (q.smearByte v).byteAt p' c' = q.byteAt p' c' := by
  have hon : q.cursorOnPanel = true := by
    rw [Panel.cursorOnPanel, h.page, h.col]
    exact (Bool.and_eq_true _ _).mpr ⟨decide_eq_true hp, decide_eq_true hc⟩
  rw [Panel.smearByte, if_pos h.mode, if_pos hon, Panel.byteAt, Panel.advance_ram, Panel.cursor, h.page, h.col]
  exact Memory.lookup_erase_ne _ fun heq => hne ((linear_inj hc' hc).1 heq).1

/-- Bytes that fit in the rest of a page's row, and may have been lost, leave every other page. -/
theorem Panel.WritesAt.byteAt_foldl_smearByte {bytes : List Byte} {q : Panel} {p c p' c' : Nat} (h : q.WritesAt p c)
    (hp : p < 8) (hc : c + bytes.length ≤ 128) (hc' : c' < 128) (hne : p' ≠ p) :
    (bytes.foldl Panel.smearByte q).byteAt p' c' = q.byteAt p' c' := by
  induction bytes generalizing q c with
  | nil => rfl
  | cons v more ih =>
    rw [List.length_cons] at hc
    rw [List.foldl_cons, ← h.byteAt_smearByte hp (by omega) v hc' hne]
    rcases more with _ | ⟨u, more⟩
    · rfl
    · rw [List.length_cons] at hc
      exact ih (h.next_smear hp (by omega) v) (by rw [List.length_cons]; omega)

/-- A failed burst of a page's row leaves every other page (93_implementation_defined.md U4). -/
theorem Panel.WritesAt.byteAt_torn_data {bytes : List Byte} {q : Panel} {p p' c' : Nat} (h : q.WritesAt p 0)
    (hp : p < 8) (hlen : bytes.length ≤ 128) (hc' : c' < 128) (hne : p' ≠ p) :
    (q.torn .data bytes).byteAt p' c' = q.byteAt p' c' := by
  show Memory.lookup (q.tornBurst bytes).interrupted.ram _ = _
  rw [Panel.interrupted_ram]
  exact h.byteAt_foldl_smearByte hp (by omega) hc' hne

/-! ## Where a page's burst leaves the cursor -/

/-- The panel with another display memory, other ranges and another cursor. -/
def Panel.withCursor (m : Memory) (colLo colHi pageLo pageHi col page : Byte) (q : Panel) : Panel :=
  { q with ram := m, colLo := colLo, colHi := colHi, pageLo := pageLo, pageHi := pageHi, col := col, page := page }

/-- The panel differs at most in its display memory, its ranges and its cursor. -/
def Panel.SameSettings (q q' : Panel) : Prop :=
  ∃ m colLo colHi pageLo pageHi col page, q' = q.withCursor m colLo colHi pageLo pageHi col page

theorem Panel.sameSettings_refl (q : Panel) : q.SameSettings q :=
  ⟨q.ram, q.colLo, q.colHi, q.pageLo, q.pageHi, q.col, q.page, rfl⟩

/-- Before the last column a data byte moves the cursor one column on. -/
theorem Panel.WritesAt.dataByte_of_lt {q : Panel} {p c : Nat} (h : q.WritesAt p c) (hp : p < 8) (hc : c < 127)
    (v : Byte) : q.dataByte v = { q with ram := (q.dataByte v).ram, col := q.col + 1 } := by
  have hne : q.col ≠ q.colHi := fun he => by
    have := h.colHi
    rw [← he, h.col] at this
    omega
  rw [h.dataByte hp (by omega), Panel.advance, if_neg hne]

/-- At the last column a data byte moves the cursor to the first column of the next page. -/
theorem Panel.WritesAt.dataByte_last {q : Panel} {p : Nat} (h : q.WritesAt p 127) (hp : p < 8) (v : Byte) :
    q.dataByte v = { q with
      ram := (q.dataByte v).ram, col := q.colLo, page := if q.page = q.pageHi then q.pageLo else q.page + 1 } := by
  have heq : q.col = q.colHi := BitVec.eq_of_toNat_eq (h.col.trans h.colHi.symm)
  rw [h.dataByte hp (by decide), Panel.advance, if_pos heq]

/-- Data bytes up to the end of a page's row move the cursor to the first column of the next page. -/
theorem Panel.WritesAt.take_data_row {bytes : List Byte} {q : Panel} {p c : Nat} (h : q.WritesAt p c) (hp : p < 8)
    (hc : c < 128) (hlen : c + bytes.length = 128) :
    q.take .data bytes = { q with
      ram := (q.take .data bytes).ram
      col := q.colLo, page := if q.page = q.pageHi then q.pageLo else q.page + 1 } := by
  induction bytes generalizing q c with
  | nil => exact absurd hlen hc.ne
  | cons v more ih =>
    rw [List.length_cons] at hlen
    rcases more with _ | ⟨u, more⟩
    · obtain rfl : c = 127 := by simpa using hlen
      exact h.dataByte_last hp v
    · rw [List.length_cons] at hlen
      have hmore := ih (h.next hp (by omega) v) (by omega) (by rw [List.length_cons]; omega)
      have hfirst := h.dataByte_of_lt hp (by omega) v
      show (q.dataByte v).take .data (u :: more) = { q with
        ram := ((q.dataByte v).take .data (u :: more)).ram
        col := q.colLo, page := if q.page = q.pageHi then q.pageLo else q.page + 1 }
      rw [hmore, hfirst]

/-- The cursor-set pair of a page leaves the cursor at its start (R77). -/
theorem Panel.writesAt_cursorSet {q : Panel} {p : Nat} (hp : p < 8) (hmode : q.addrMode = 0x00)
    (hpend : q.pending = []) : (q.take .cmd (Config.cursorSet Config.params p)).WritesAt p 0 := by
  rw [Panel.take_cursorSet p hpend]
  exact ⟨hmode, Nat.mod_eq_of_lt (show p < 256 by omega), rfl, rfl⟩

/-- The panel when it has taken a page's cursor-set pair and burst. -/
def Panel.takePage (m : Memory) (p : Nat) (q : Panel) : Panel :=
  (q.take .cmd (Config.cursorSet Config.params p)).take .data (pageRow m p)

/-- A page's cursor-set pair and burst set the ranges, and leave the cursor behind the page. -/
theorem Panel.takePage_eq {q : Panel} {p : Nat} (m : Memory) (hp : p < 8) (hmode : q.addrMode = 0x00)
    (hpend : q.pending = []) :
    q.takePage m p = q.withCursor (q.takePage m p).ram 0x00 0x7F (BitVec.ofNat 8 p) 0x07 0x00
      (if BitVec.ofNat 8 p = 0x07#8 then BitVec.ofNat 8 p else BitVec.ofNat 8 p + 1) := by
  have hrow := (Panel.writesAt_cursorSet hp hmode hpend).take_data_row (bytes := pageRow m p) hp (by decide)
    (by rw [pageRow_length])
  have hset := Panel.take_cursorSet p hpend
  rw [hset] at hrow
  rw [Panel.takePage, hset]
  exact hrow

/-! ## The pages of a flush -/

theorem flushPanel_succ (s : State) (p : Nat) {j : Nat} (hj : j < 7) :
    flushPanel s (7 * p + j + 1) =
      (flushPanel s (7 * p + j)).take (pageTransaction s p j).1 (pageTransaction s p j).2 := by
  rw [flushPanel, show (7 * p + j) / 7 = p by omega, show (7 * p + j) % 7 = j by omega]

/-- The first six transactions of a page are the bytes of its cursor-set pair (R77). -/
theorem pageTransaction_cursorSet (s : State) (p : Nat) {j : Nat} (hj : j < 6) :
    ∃ b, pageTransaction s p j = (.cmd, [b]) ∧
      (Config.cursorSet s.params p).take (j + 1) = (Config.cursorSet s.params p).take j ++ [b] := by
  match j, hj with
  | 0, _ | 1, _ | 2, _ | 3, _ | 4, _ | 5, _ => exact ⟨_, rfl, rfl⟩

/-- Before a page's burst the panel has taken the beginning of its cursor-set pair. -/
theorem flushPanel_cursorSet (s : State) (p : Nat) {j : Nat} (hj : j ≤ 6) :
    flushPanel s (7 * p + j) = (flushPanel s (7 * p)).take .cmd ((Config.cursorSet s.params p).take j) := by
  induction j with
  | zero => rfl
  | succ j ih =>
    obtain ⟨b, hb, htake⟩ := pageTransaction_cursorSet s p hj
    rw [← Nat.add_assoc, flushPanel_succ s p (by omega), ih (by omega), hb, htake, Panel.take_cmd_append]

/-- With the default parameters a whole page is its cursor-set pair and its burst. -/
theorem flushPanel_page {s : State} (hparams : s.params = Config.params) (p : Nat) :
    flushPanel s (7 * (p + 1)) = (flushPanel s (7 * p)).takePage s.fb p := by
  have hpair := flushPanel_cursorSet s p (j := 6) le_rfl
  rw [hparams] at hpair
  rw [show 7 * (p + 1) = 7 * p + 6 + 1 by omega, flushPanel_succ s p (by decide), hpair]
  rfl

/-- The first `p` pages show the buffer, the others what they showed before, and the settings are as before. -/
structure PagesShown (s : State) (p : Nat) (q : Panel) : Prop where
  earlier : ∀ p' c, p' < p → c < 128 → q.byteAt p' c = some (Memory.read s.fb (linear p' c))
  later : ∀ p' c, p ≤ p' → c < 128 → q.byteAt p' c = s.panel.byteAt p' c
  settings : s.panel.SameSettings q

theorem PagesShown.pending {s : State} {p : Nat} {q : Panel} (h : PagesShown s p q) :
    q.pending = s.panel.pending := by
  obtain ⟨_, _, _, _, _, _, _, rfl⟩ := h.settings
  rfl

theorem PagesShown.addrMode {s : State} {p : Nat} {q : Panel} (h : PagesShown s p q) :
    q.addrMode = s.panel.addrMode := by
  obtain ⟨_, _, _, _, _, _, _, rfl⟩ := h.settings
  rfl

section
variable {s : State} {p : Nat} (hmode : s.panel.addrMode = 0x00) (hpend : s.panel.pending = [])
include hmode hpend

/-- The next page shows the buffer too. -/
theorem PagesShown.succ {q : Panel} (h : PagesShown s p q) (hp : p < 8) :
    PagesShown s (p + 1) (q.takePage s.fb p) := by
  have hmode' := h.addrMode.trans hmode
  have hpend' := h.pending.trans hpend
  obtain ⟨hpage, hothers, -⟩ := cursorSetThenBurstShowsThePage q s.fb p hp hmode' hpend'
  refine ⟨fun p' c hp' hc => ?_, fun p' c hp' hc => ?_, ?_⟩
  · rcases Nat.lt_or_eq_of_le (Nat.le_of_lt_succ hp') with hlt | rfl
    · exact (hothers p' c hc hlt.ne).trans (h.earlier p' c hlt hc)
    · exact hpage c hc
  · exact (hothers p' c hc (by omega)).trans (h.later p' c (by omega) hc)
  · have heq := Panel.takePage_eq s.fb hp hmode' hpend'
    obtain ⟨_, _, _, _, _, _, _, rfl⟩ := h.settings
    exact ⟨_, _, _, _, _, _, _, heq⟩

variable (hparams : s.params = Config.params)
include hparams

/-- After `p` pages of a flush. -/
theorem flushPanel_pagesShown (hp : p ≤ 8) : PagesShown s p (flushPanel s (7 * p)) := by
  induction p with
  | zero => exact ⟨nofun, fun _ _ _ _ => rfl, s.panel.sameSettings_refl⟩
  | succ p ih =>
    rw [flushPanel_page hparams]
    exact (ih (by omega)).succ hmode hpend hp

/-- After all eight pages of a flush. -/
theorem flushPanel_whole :
    flushPanel s 56 = s.panel.withCursor (flushPanel s 56).ram 0x00 0x7F 0x07 0x07 0x00 0x07 := by
  have h := flushPanel_pagesShown (p := 7) hmode hpend hparams (by decide)
  have hpage : flushPanel s 56 = (flushPanel s (7 * 7)).takePage s.fb 7 := flushPanel_page hparams 7
  have heq := Panel.takePage_eq s.fb (p := 7) (by decide) (h.addrMode.trans hmode) (h.pending.trans hpend)
  obtain ⟨_, _, _, _, _, _, _, hset⟩ := h.settings
  rw [← hpage, hset] at heq
  exact heq

/-- A write of a page that fails leaves the other pages, and the page too if it is no burst. -/
theorem byteAt_torn_of_flush {j p' c : Nat} (hp : p < 8) (hj : j < 7) (hc : c < 128) (hother : p' ≠ p ∨ j < 6) :
    ((flushPanel s (7 * p + j)).torn (pageTransaction s p j).1 (pageTransaction s p j).2).byteAt p' c =
      (flushPanel s (7 * p)).byteAt p' c := by
  have h := flushPanel_pagesShown hmode hpend hparams hp.le
  have hpend' := h.pending.trans hpend
  have hram (i : Nat) := Panel.take_cursorSet_take_ram p i hpend'
  rw [flushPanel_cursorSet s p (Nat.le_of_lt_succ hj), hparams]
  rcases Nat.lt_or_ge j 6 with hlt | hge
  · obtain ⟨b, hb, htake⟩ := pageTransaction_cursorSet s p hlt
    rw [hparams] at htake
    rw [hb, Panel.byteAt, Panel.torn_cmd_ram, hram j]
    · rfl
    · have hnext := hram (j + 1)
      rw [htake, Panel.take_cmd_append] at hnext
      exact hnext.trans (hram j).symm
  · obtain rfl : j = 6 := by omega
    have hat := Panel.writesAt_cursorSet hp (h.addrMode.trans hmode) hpend'
    refine (hat.byteAt_torn_data hp (bytes := pageRow s.fb p) (by rw [pageRow_length]) hc
      (hother.resolve_right (by decide))).trans ?_
    rw [Panel.byteAt]
    exact congrArg (Memory.lookup · _) (hram 6)

end

theorem flushed_panel (k : Nat) (rest : List Answer) (s : State) : (flushed k rest s).panel = flushPanel s k := rfl

/-- Settles O54: of the ways a flush can go only the one with every write answered `OK` ends with `OK`, and then the
panel has taken all eight pages. -/
theorem completedFlushShowsTheBuffer : Obligations.CompletedFlushShowsTheBuffer := by
  intro s t hparams hs hmode hpend h hend hok
  cases hi : s.initialized with
  | false =>
    cases (exec_invalid (op := .updateDisplay) rfl hs hi).symm.trans h
    cases hok
  | true =>
    rcases exec_flush_cases hs hi h with ⟨rest, rfl⟩ | ⟨k, e, rest, -, -, rfl⟩ | ⟨k, -, rfl⟩
    · have hshown : PagesShown s 8 (flushPanel s 56) := flushPanel_pagesShown hmode hpend hparams le_rfl
      rw [finish_panel, flushed_panel]
      refine ⟨fun p c hp hc => ?_, rfl, flushPanel_whole hmode hpend hparams⟩
      rw [fbRead_eq s hp hc]
      exact hshown.earlier p c hp hc
    · cases hok
    · cases hend

/-- What a flush leaves on the panel that fails at action `j` of page `p`. -/
theorem flushFailed_panel (s : State) (p : Nat) {j : Nat} (hj : j < 7) (e : IoErr) (rest : List Answer) :
    (flushFailed (7 * p + j) e rest s).panel =
      (flushPanel s (7 * p + j)).torn (pageTransaction s p j).1 (pageTransaction s p j).2 := by
  rw [flushFailed, show (7 * p + j) / 7 = p by omega, show (7 * p + j) % 7 = j by omega]
  rfl

/-- Settles O55: the flush ends at its failed write (`exec_flush_err`), behind `p` whole pages. -/
theorem abortedFlushTearsTheImage : Obligations.AbortedFlushTearsTheImage := by
  intro s t p j e rest hparams hs hi hmode hpend hp hj hans h
  cases (exec_flush_err hs hi (by omega) hans).symm.trans h
  rw [flushFailed_panel s p hj]
  have hshown := flushPanel_pagesShown hmode hpend hparams hp.le
  have htorn {p' c : Nat} (hc : c < 128) := byteAt_torn_of_flush (p' := p') hmode hpend hparams hp hj hc
  refine ⟨fun p' c hp' hc => ?_, fun p' c hp' _ hc => ?_, fun hj' c hc => ?_⟩
  · rw [htorn hc (.inl hp'.ne), fbRead_eq s (hp'.trans hp) hc]
    exact hshown.earlier p' c hp' hc
  · rw [htorn hc (.inl hp'.ne')]
    exact hshown.later p' c hp'.le hc
  · rw [htorn hc (.inr (Nat.lt_succ_of_le hj'))]
    exact hshown.later p c le_rfl hc

end Sys2Proof.Machine
end

section
/-! PROOFS. A request that nobody answers, what every instruction answers, and the two errors an operation can end
with. -/

namespace Sys2Proof.Machine

open Sys2Proof

/-! ## A request that nobody answers -/

/-- Nobody has answered the request: no answer stands by for a write, no completion for a delay (60_exceptions.md
R177). -/
def Unanswered (s : State) : Prop :=
  ((∃ sel bytes, s.request = some (.write sel bytes)) ∧ s.answers = []) ∨
    ((∃ ms, s.request = some (.delay ms)) ∧ s.delaysDone = 0)

theorem cmdReady_iff (s : State) : cmdReady s = true ↔ s.seq = .idle := by
  rw [cmdReady]
  cases s.seq with
  | idle => simp [Seq.isIdle]
  | run op k => simp [Seq.isIdle]

/-- A step at a request not answered changes nothing. -/
theorem step_unanswered {s : State} {op : Operation} {k : Nat} (hrst : s.rst = false) (hq : s.seq = .run op k)
    (hwait : Unanswered s) : step s = .next s := by
  rw [step_run hrst hq]
  rcases hwait with ⟨⟨sel, bytes, hr⟩, hans⟩ | ⟨⟨ms, hr⟩, hdone⟩
  · rw [seqStep_waiting hq hr, settle_write_none _ _ _ _ hans]
  · rw [seqStep_waiting hq hr, settle_delay_none _ _ _ hdone]

/-- A state that a step leaves as it is, any number of steps leaves as it is. -/
theorem run_of_step_self {s : State} (h : step s = .next s) (n : Nat) :
    Host.Core.run Sys2Proof.core n s = .next s := by
  induction n with
  | zero => rfl
  | succ n ih => exact (run_succ n h).trans ih

/-- No event from outside but `rst` touches the request (70_reset_and_hazards.md R190). -/
theorem applyInput_request {e : Input} (s : State) (he : ∀ b, e ≠ .rst b) :
    (applyInput e s).request = s.request := by
  cases e with
  | rst b => exact absurd rfl (he b)
  | answer a => exact giveAnswer_request s a
  | command w => rfl
  | select sel => rfl
  | bus bytes => rfl
  | delayDone => rfl
  | pins p => rfl
  | panelPowerCycle => rfl

/-- Settles O10: `step_unanswered` repeated; a reset leads to `IDLE`, and the other events leave position and
request. -/
theorem unansweredRequestHangs : Obligations.UnansweredRequestHangs := by
  intro s op k hq hwait
  refine ⟨?_, fun hrst => run_of_step_self (step_unanswered hrst hq hwait), ?_, fun hrst => ?_, fun e he => ?_⟩
  · rw [cmdReady, hq, Seq.isIdle]
  · exact (cmdReady_iff _).2 (applyReset_seq s)
  · exact ⟨_, step_rst hrst, (cmdReady_iff _).2 (applyReset_seq s)⟩
  · obtain ⟨hseq, -⟩ := applyInput_registers s he
    exact ⟨hseq, applyInput_request s he⟩

/-! ## Every instruction answers -/

/-- Settles O40: `exec_answers`. -/
theorem everyInstructionAnswersANextState : Obligations.EveryInstructionAnswersANextState := exec_answers

/-! ## `InvalidArgument` -/

theorem exists_operationOf {i : Instr} (h : layerOf i = .hostCommand) : ∃ op, operationOf i = some op :=
  Option.isSome_iff_exists.mp ((operationOf_isSome_iff i).2 h)

/-- Settles O33: an operation whose checks pass does not end with `InvalidArgument`, and a check that fails changes
only the result. -/
theorem invalidArgumentChangesNothing : Obligations.InvalidArgumentChangesNothing := by
  intro s t i hi hs h hend hres
  obtain ⟨op, hop⟩ := exists_operationOf hi
  cases hargs : argsOk op s with
  | false =>
    cases (exec_invalid hop hs hargs).symm.trans h
    rfl
  | true => exact absurd hres (runOperation_noInvalidArgument hs hargs ((exec_host hop s).symm.trans h) hend)

/-! ## `IoError` -/

/-- How many of these trace items are writes. -/
def writeCount (T : List Event) : Nat := (T.filter fun ev => !ev.isDelay).length

theorem writeCount_append (T T' : List Event) : writeCount (T ++ T') = writeCount T + writeCount T' := by
  simp [writeCount]

/-- How many writes wait for their answer. -/
def unansweredWrites (r : Option Request) : Nat :=
  match r with
  | some (.write _ _) => 1
  | some (.delay _) => 0
  | none => 0

theorem writeCount_eventOf (r : Request) (s : State) : writeCount [eventOf r s] = unansweredWrites (some r) := by
  cases r <;> rfl

/-- Since `s` every answer taken was `OK`, and each write appended to `T` took one but for the one that waits. -/
def AnsweredOkSince (s t : State) : Prop :=
  ∃ n new, s.answers = List.replicate n .ok ++ t.answers ∧ t.trace = s.trace ++ new ∧
    writeCount new = n + unansweredWrites t.request

/-- Since `s` the answers taken were some number of `OK` and then `ERR(e)`, one for each write appended to `T`. -/
def FailedSince (e : IoErr) (s t : State) : Prop :=
  ∃ n rest new, s.answers = List.replicate n .ok ++ .err e :: rest ∧ t.answers = rest ∧
    t.trace = s.trace ++ new ∧ writeCount new = n + 1

/-- An operation begun in `s` runs with no error so far, or has ended, and then with `IoError(e)` only at the first
error of the transport (R162). -/
def FirstErrorSince (s t : State) : Prop :=
  (t.seq ≠ .idle ∧ AnsweredOkSince s t) ∨ (t.seq = .idle ∧ ∀ e, t.lastResult = .ioError e → FailedSince e s t)

theorem answeredOkSince_refl {s : State} (hr : s.request = none) : AnsweredOkSince s s :=
  ⟨0, [], rfl, (List.append_nil _).symm, by rw [hr]; rfl⟩

/-- Issuing a request appends its write, which then waits. -/
theorem AnsweredOkSince.issue {s u : State} (h : AnsweredOkSince s u) (hr : u.request = none) (r : Request) :
    AnsweredOkSince s (issue r u) := by
  obtain ⟨n, new, hans, htrace, hcount⟩ := h
  refine ⟨n, new ++ [eventOf r u], hans, by simp [htrace], ?_⟩
  rw [hr] at hcount
  rw [writeCount_append, writeCount_eventOf, hcount]
  rfl

/-- Completing an action with no request left. -/
theorem AnsweredOkSince.completeAction {s u : State} (h : AnsweredOkSince s u) (op : Operation) (k : Nat) :
    FirstErrorSince s (completeAction op k u) := by
  rcases Nat.lt_or_ge (k + 1) (actions u.params op).length with hk | hk
  · rw [completeAction_more u hk]
    exact .inl ⟨nofun, h⟩
  · rw [completeAction_last u hk]
    exact .inr ⟨rfl, nofun⟩

/-- Taking the answer to the outstanding request. -/
theorem AnsweredOkSince.settle {s u : State} (h : AnsweredOkSince s u) (op : Operation) (k : Nat) {r : Request}
    (hq : u.seq ≠ .idle) (hr : u.request = some r) : FirstErrorSince s (settle op k r u) := by
  have ⟨n, new, hans, htrace, hcount⟩ := h
  rw [hr] at hcount
  rcases settle_cases op k r u with
    ⟨h', -⟩ | ⟨sel, bytes, rest, rfl, hok, h'⟩ | ⟨sel, bytes, e, rest, rfl, herr, h'⟩ | ⟨ms, d, rfl, -, h'⟩ <;> rw [h']
  · exact .inl ⟨hq, h⟩
  · rw [hok, List.append_cons, ← List.replicate_succ'] at hans
    exact AnsweredOkSince.completeAction (u := deliver sel bytes (takeAnswer rest u))
      ⟨n + 1, new, hans, htrace, hcount⟩ op k
  · rw [herr] at hans
    refine .inr ⟨rfl, fun e' he => ?_⟩
    cases he
    exact ⟨n, rest, new, hans, rfl, htrace, hcount⟩
  · exact AnsweredOkSince.completeAction (u := takeDelay d u) ⟨n, new, hans, htrace, hcount⟩ op k

/-- A step of the sequencer takes at most one answer, and ends the operation where that is an error. -/
theorem seqStep_firstErrorSince {s : State} (u t : State) (hu : FirstErrorSince s u) (h : seqStep u = .next t) :
    FirstErrorSince s t := by
  rcases hu with ⟨hq, hok⟩ | ⟨hq, herr⟩
  · rcases seqStep_cases h with ⟨hidle, -⟩ | ⟨op, k, r, -, hr, rfl⟩ | ⟨op, k, a, -, hr, -, ha⟩
    · exact absurd hidle hq
    · exact hok.settle op k hq hr
    · rcases startAction_cases ha with ⟨_, _, -, rfl⟩ | ⟨-, rfl⟩ | ⟨-, rfl⟩ | ⟨_, _, _, _, -, -, -, rfl⟩ | ⟨r, -, rfl⟩
      · exact AnsweredOkSince.completeAction (u := bindContext _ _ u) hok op k
      · exact AnsweredOkSince.completeAction (u := setInitialized false u) hok op k
      · exact AnsweredOkSince.completeAction (u := setFb [] u) hok op k
      · refine AnsweredOkSince.completeAction (u := setFb _ u) ?_ op k
        exact hok
      · exact (hok.issue hr r).settle op k hq rfl
  · cases (seqStep_idle hq).symm.trans h
    exact .inr ⟨hq, herr⟩

/-- Settles O34: a check that fails is no `IoError`, and every step of an accepted operation keeps
`FirstErrorSince`. -/
theorem ioErrorIsTheFirstErrorOfTheTransport : Obligations.IoErrorIsTheFirstErrorOfTheTransport := by
  intro s t i e hi hs h hend hres
  obtain ⟨op, hop⟩ := exists_operationOf hi
  cases hargs : argsOk op s with
  | false =>
    cases (exec_invalid hop hs hargs).symm.trans h
    cases hres
  | true =>
    rw [exec_host hop, runOperation_accepted hs.1 hs.2 hargs] at h
    have hstart : FirstErrorSince s (setSeq (.run op 0) s) := .inl ⟨nofun, answeredOkSince_refl hs.2⟩
    rcases drive_keeps seqStep_firstErrorSince h hstart with ⟨hq, -⟩ | ⟨-, hfail⟩
    · exact absurd hend hq
    · exact hfail e hres

end Sys2Proof.Machine
end

section
/-! PROOFS. The lifecycle: which steps and which instructions write `ctx.initialized`. -/

namespace Sys2Proof.Machine

open Sys2Proof

/-- The last operation has ended with `OK`. -/
abbrev EndedOk (t : State) : Prop := t.seq = .idle ∧ t.lastResult = .ok

theorem not_endedOk_of_run {t : State} {op : Operation} {k : Nat} (h : t.seq = .run op k) : ¬ EndedOk t := by
  simp [h]

/-! ## Steps of the sequencer -/

/-- From `s` to `t` action `k`, completed, failed or still waiting, set `ctx.initialized` where it was the last one of an
`INIT` and ended it with `OK`, and left it otherwise (60_exceptions.md R172). -/
def MarksAtTheEnd (op : Operation) (k : Nat) (s t : State) : Prop :=
  (t.initialized = s.initialized ∧ ¬ (op.isInit = true ∧ EndedOk t)) ∨
  (t.initialized = true ∧ op.isInit = true ∧ (actions s.params op).length ≤ k + 1 ∧ EndedOk t)

/-- The action is the first one of `DEINIT` or of `INIT`, which clears `ctx.initialized` (R93, R96). -/
def ClearsFlag (op : Operation) (k : Nat) (s : State) : Prop :=
  (actions s.params op)[k]? = some .unmark ∨ ∃ a h, (actions s.params op)[k]? = some (.bind a h)

theorem completeAction_marksAtTheEnd (op : Operation) (k : Nat) (s : State) :
    MarksAtTheEnd op k s (completeAction op k s) := by
  rcases Nat.lt_or_ge (k + 1) (actions s.params op).length with hk | hk
  · rw [completeAction_more s hk]
    exact .inl ⟨rfl, fun h => not_endedOk_of_run rfl h.2⟩
  · rw [completeAction_last s hk]
    cases hop : op.isInit with
    | true => exact .inr ⟨by simp [markDone_initialized, hop], hop, hk, rfl, rfl⟩
    | false => exact .inl ⟨by simp [markDone_initialized, hop], by simp [hop]⟩

theorem settle_marksAtTheEnd {op : Operation} {k : Nat} (r : Request) {s : State} (hq : s.seq = .run op k) :
    MarksAtTheEnd op k s (settle op k r s) := by
  rcases settle_cases op k r s with
    ⟨h, -⟩ | ⟨sel, bytes, rest, -, -, h⟩ | ⟨_, _, _, _, -, -, h⟩ | ⟨_, n, -, -, h⟩ <;> rw [h]
  · exact .inl ⟨rfl, fun hend => not_endedOk_of_run hq hend.2⟩
  · exact completeAction_marksAtTheEnd op k (deliver sel bytes (takeAnswer rest s))
  · exact .inl ⟨rfl, nofun⟩
  · exact completeAction_marksAtTheEnd op k (takeDelay n s)

/-- Everything a step of a running operation can do to `ctx.initialized`. -/
theorem seqStep_lifecycle {s t : State} {op : Operation} {k : Nat} (hq : s.seq = .run op k)
    (h : seqStep s = .next t) :
    MarksAtTheEnd op k s t ∨ (ClearsFlag op k s ∧ t.initialized = false ∧ ¬ EndedOk t) := by
  rcases seqStep_cases h with ⟨hidle, -⟩ | ⟨op', k', r, hq', -, rfl⟩ | ⟨op', k', a, hq', -, ha, hstart⟩
  · simp [hq] at hidle
  · cases hq.symm.trans hq'
    exact .inl (settle_marksAtTheEnd r hq)
  · cases hq.symm.trans hq'
    rcases startAction_cases hstart with
      ⟨addr, hd, rfl, rfl⟩ | ⟨rfl, rfl⟩ | ⟨-, rfl⟩ | ⟨_, _, _, _, -, -, -, rfl⟩ | ⟨r, -, rfl⟩
    · obtain ⟨rfl, rfl⟩ : op = .init addr hd ∧ k = 0 := by simpa using action_cases ha
      have hlen := actions_length_init s.params addr hd
      rw [completeAction_more (bindContext addr hd s) (show 0 + 1 < (actions s.params _).length by omega)]
      exact .inr ⟨.inr ⟨addr, hd, ha⟩, rfl, not_endedOk_of_run rfl⟩
    · obtain ⟨rfl, rfl⟩ : op = .deinit ∧ k = 0 := by simpa using action_cases ha
      rw [completeAction_more (setInitialized false s) (show 0 + 1 < 2 by decide)]
      exact .inr ⟨.inl ha, rfl, not_endedOk_of_run rfl⟩
    · exact .inl (completeAction_marksAtTheEnd op k (setFb [] s))
    · exact .inl (completeAction_marksAtTheEnd op k (setFb _ s))
    · exact .inl (settle_marksAtTheEnd (s := issue r s) r hq)

theorem isInit_iff (op : Operation) : op.isInit = true ↔ ∃ a h, op = .init a h := by
  cases op <;> simp [Operation.isInit]

/-- Only `INIT` and `DEINIT` have an action that clears the flag. -/
theorem ClearsFlag.operation {op : Operation} {k : Nat} {s : State} (h : ClearsFlag op k s) :
    op.isInit = true ∨ op = .deinit := by
  rcases h with h | ⟨a, hd, h⟩
  · have hop : op = .deinit ∧ k = 0 := by simpa using action_cases h
    exact .inr hop.1
  · have hop : op = .init a hd ∧ k = 0 := by simpa using action_cases h
    exact .inl ((isInit_iff op).2 ⟨a, hd, hop.1⟩)

/-! ## Instructions -/

/-- Nothing but `op` runs, and the flag is `b`. -/
def RunsWithFlag (op : Operation) (b : Bool) (s : State) : Prop :=
  s.initialized = b ∧ (s.seq = .idle ∨ ∃ k, s.seq = .run op k)

/-- No step of an operation that is neither `INIT` nor `DEINIT` writes the flag. -/
theorem seqStep_runsWithFlag {op : Operation} {b : Bool} (hinit : op.isInit = false) (hdeinit : op ≠ .deinit)
    (s t : State) (hs : RunsWithFlag op b s) (h : seqStep s = .next t) : RunsWithFlag op b t := by
  obtain ⟨hb, hseq⟩ := hs
  refine ⟨?_, seqStep_sameOperation h hseq⟩
  rcases hseq with hidle | ⟨k, hq⟩
  · cases (seqStep_idle hidle).symm.trans h
    exact hb
  · rcases seqStep_lifecycle hq h with (⟨hsame, -⟩ | ⟨-, hop, -⟩) | ⟨hclear, -⟩
    · exact hsame.trans hb
    · simp [hinit] at hop
    · rcases hclear.operation with hop | hop
      · simp [hinit] at hop
      · exact absurd hop hdeinit

theorem accept_initialized (op : Operation) (s : State) : (accept op s).initialized = s.initialized := by
  unfold accept
  split <;> rfl

theorem runOperation_initialized {op : Operation} {s t : State} (hinit : op.isInit = false) (hdeinit : op ≠ .deinit)
    (hs : Ready s) (h : runOperation op s = .next t) : t.initialized = s.initialized := by
  have hacc : RunsWithFlag op s.initialized (accept op s) :=
    ⟨accept_initialized op s, (accept_seq op s).imp_right fun h0 => ⟨0, h0⟩⟩
  exact (runOperation_keeps (seqStep_runsWithFlag hinit hdeinit) h (fun _ => hacc) ⟨rfl, .inl hs.1⟩).1

theorem eq_init_of_operationOf {i : Instr} {a : BusAddr} {h : BusHandle} (hop : operationOf i = some (.init a h)) :
    i = .init a h := by
  cases i <;> cases hop
  rfl

theorem eq_deinit_of_operationOf {i : Instr} (hop : operationOf i = some .deinit) : i = .deinit := by
  cases i <;> cases hop
  rfl

/-- No instruction but `INIT` and `DEINIT`, of any layer, writes the flag. -/
theorem exec_initialized {i : Instr} {s t : State} (hinit : ∀ a h, i ≠ .init a h) (hdeinit : i ≠ .deinit)
    (hs : Ready s) (h : exec i s = .next t) : t.initialized = s.initialized := by
  cases hl : layerOf i with
  | hostCommand =>
    obtain ⟨op, hop⟩ := exists_operationOf hl
    refine runOperation_initialized (Bool.eq_false_iff.2 fun hi => ?_) (fun hd => ?_) hs
      ((exec_host hop s).symm.trans h)
    · obtain ⟨a, hd, rfl⟩ := (isInit_iff op).1 hi
      exact hinit a hd (eq_init_of_operationOf hop)
    · exact hdeinit (eq_deinit_of_operationOf (hd ▸ hop))
  | hostResult =>
    obtain ⟨r, hr⟩ := exec_result hl s
    cases hr.symm.trans h
    rfl
  | transportSelector =>
    obtain ⟨sel, hsel⟩ := exec_selector hl s
    cases hsel.symm.trans h
    rfl
  | panelCommand =>
    cases (exec_panel hl s).symm.trans h
    rfl

/-- `DEINIT` past its handle check leaves the context uninitialised, whatever its write is answered (R96). -/
theorem exec_deinit_initialized {s t : State} (hs : Ready s) (hhandles : handlesOk s = true)
    (h : exec .deinit s = .next t) : t.initialized = false := by
  cases (exec_deinit hs hhandles).symm.trans h
  have hmarks : MarksAtTheEnd .deinit 1 (setInitialized false s)
      (sendAt .deinit 1 s.params.cmdDisplayOff (setInitialized false s)) :=
    settle_marksAtTheEnd (s := issue _ (setSeq (.run .deinit 1) (setInitialized false s))) _ rfl
  rcases hmarks with ⟨hsame, -⟩ | ⟨-, hop, -⟩
  · exact hsame
  · cases hop

/-- An `INIT` past its first action runs and has not set the flag, or has ended, with `OK` exactly where it has. -/
def InitMarked (a : BusAddr) (h : BusHandle) (s : State) : Prop :=
  (s.initialized = true ↔ EndedOk s) ∧ (s.seq = .idle ∨ ∃ k, s.seq = .run (.init a h) k)

theorem seqStep_initMarked {a : BusAddr} {h : BusHandle} (s t : State) (hs : InitMarked a h s)
    (ht : seqStep s = .next t) : InitMarked a h t := by
  obtain ⟨hflag, hseq⟩ := hs
  refine ⟨?_, seqStep_sameOperation ht hseq⟩
  rcases hseq with hidle | ⟨k, hq⟩
  · cases (seqStep_idle hidle).symm.trans ht
    exact hflag
  · have hs0 : ¬ s.initialized = true := fun hi => not_endedOk_of_run hq (hflag.1 hi)
    rcases seqStep_lifecycle hq ht with (⟨hsame, hend⟩ | ⟨hset, -, -, hend⟩) | ⟨-, hclear, hend⟩
    · exact iff_of_false (hsame ▸ hs0) fun hok => hend ⟨rfl, hok⟩
    · exact iff_of_true hset hend
    · exact iff_of_false (by simp [hclear]) hend

/-- `INIT` past its argument check leaves the context initialised exactly where it returned `OK` (R91, R95). -/
theorem exec_init_initialized {s t : State} {a : BusAddr} {h : BusHandle} (hs : Ready s)
    (hpins : s.pins = ⟨true, true, true⟩) (ht : exec (.init a h) s = .next t) :
    t.initialized = true ↔ EndedOk t := by
  have hstart : InitMarked a h (setSeq (.run (.init a h) 1) (bindContext a h s)) :=
    ⟨iff_of_false nofun (not_endedOk_of_run rfl), .inr ⟨1, rfl⟩⟩
  exact (drive_keeps seqStep_initMarked ((exec_init a h hs hpins).symm.trans ht) hstart).1

/-- The three things an instruction can do to the flag: nothing, or `DEINIT` or `INIT` past its check writes it. -/
theorem exec_lifecycle {i : Instr} {s t : State} (hs : Ready s) (h : exec i s = .next t) :
    (t.initialized = s.initialized ∧ ¬ (i = .deinit ∧ s.tpBound = true ∧ s.tmBound = true) ∧
      ¬ ((∃ a h, i = .init a h) ∧ s.pins = ⟨true, true, true⟩)) ∨
    (i = .deinit ∧ s.tpBound = true ∧ s.tmBound = true ∧ t.initialized = false) ∨
    ((∃ a h, i = .init a h) ∧ s.pins = ⟨true, true, true⟩ ∧ (t.initialized = true ↔ EndedOk t)) := by
  by_cases hd : i = .deinit
  · subst hd
    by_cases hbound : s.tpBound = true ∧ s.tmBound = true
    · exact .inr (.inl ⟨rfl, hbound.1, hbound.2, exec_deinit_initialized hs (handlesOk_of_bound hbound.1 hbound.2) h⟩)
    · have hargs : argsOk .deinit s = false := by simpa [argsOk, handlesOk] using hbound
      cases (exec_invalid rfl hs hargs).symm.trans h
      exact .inl ⟨rfl, fun hb => hbound hb.2, by simp⟩
  · by_cases hi : ∃ a h, i = .init a h
    · obtain ⟨a, hd', rfl⟩ := hi
      by_cases hpins : s.pins = ⟨true, true, true⟩
      · exact .inr (.inr ⟨⟨a, hd', rfl⟩, hpins, exec_init_initialized hs hpins h⟩)
      · have hargs : argsOk (.init a hd') s = false := Bool.eq_false_iff.2 fun hok => hpins ((pinsOk_iff s).1 hok)
        cases (exec_invalid rfl hs hargs).symm.trans h
        exact .inl ⟨rfl, by simp, fun hp => hpins hp.2⟩
    · exact .inl ⟨exec_initialized (fun a hd' heq => hi ⟨a, hd', heq⟩) hd hs h, fun hb => hd hb.1, fun hp => hi hp.1⟩

/-- Settles O36: `exec_lifecycle` for an instruction, `seqStep_lifecycle` for a step of a running operation; a reset
clears the flag. -/
theorem lifecycleTransitions : Obligations.LifecycleTransitions := by
  refine ⟨fun s t i hs h => ?_, fun s t op k hrst hq h => ?_, fun s hrst => ⟨_, step_rst hrst, applyReset_initialized s⟩,
    applyReset_initialized⟩
  · rcases exec_lifecycle hs h with ⟨hsame, hnd, hni⟩ | ⟨rfl, htp, htm, hclear⟩ | ⟨⟨a, hd, rfl⟩, hpins, hmark⟩
    · exact ⟨fun h0 h1 => by simp [hsame, h0] at h1, fun hd htp htm => absurd ⟨hd, htp, htm⟩ hnd,
        fun hi hp => absurd ⟨hi, hp⟩ hni, fun h1 h0 => by simp [hsame, h1] at h0⟩
    · exact ⟨fun _ h1 => by simp [hclear] at h1, fun _ _ _ => hclear, nofun, fun _ _ => .inl ⟨rfl, htp, htm⟩⟩
    · exact ⟨fun _ h1 => ⟨⟨a, hd, rfl⟩, hmark.1 h1⟩, nofun, fun _ _ => hmark,
        fun _ h0 => .inr ⟨⟨a, hd, rfl⟩, hpins, fun hend => by simp [hmark.2 hend] at h0⟩⟩
  · rcases seqStep_lifecycle hq ((step_run hrst hq).symm.trans h) with
      (⟨hsame, -⟩ | ⟨hset, hop, hlast, hend⟩) | ⟨hact, hclear, -⟩
    · exact ⟨fun h0 h1 => by simp [hsame, h0] at h1, fun h1 h0 => by simp [hsame, h1] at h0⟩
    · exact ⟨fun _ _ => ⟨(isInit_iff op).1 hop, hlast, hend⟩, fun _ h0 => by simp [hset] at h0⟩
    · exact ⟨fun _ h1 => by simp [hclear] at h1, fun _ _ => hact⟩

end Sys2Proof.Machine
end

section
/-! PROOFS. A data byte at the panel's cursor, the panel's ranges and its on bit. -/

namespace Sys2Proof.Machine

open Sys2Proof

/-- In horizontal addressing mode with the cursor on the panel a data byte is stored at the cursor, which goes on
(60_exceptions.md R181). -/
theorem Panel.dataByte_onPanel {q : Panel} (hmode : q.addrMode = Config.addrModeHorizontal) (hp : q.page.toNat < 8)
    (hc : q.col.toNat < 128) (v : Byte) :
    q.dataByte v = Panel.advance { q with ram := Memory.insert q.ram q.cursor v } := by
  have hon : q.cursorOnPanel = true := (Bool.and_eq_true _ _).mpr ⟨decide_eq_true hp, decide_eq_true hc⟩
  rw [Panel.dataByte, if_pos hmode, Panel.store, if_pos hon]

/-- The cursor goes to the next column, from the last one of its range to the first. -/
theorem Panel.advance_col (q : Panel) : q.advance.col = if q.col = q.colHi then q.colLo else q.col + 1 := by
  unfold Panel.advance
  split <;> rfl

/-- Behind the last column of its range the cursor goes to the next page, from the last one of its range to the
first. -/
theorem Panel.advance_page (q : Panel) :
    q.advance.page = if q.col = q.colHi then (if q.page = q.pageHi then q.pageLo else q.page + 1) else q.page := by
  unfold Panel.advance
  split <;> rfl

/-- Settles O51: the byte is listed at the cursor's own address (`Panel.dataByte_onPanel`), which no other place of the
panel has, and the cursor goes on. -/
theorem panelStoresDataAtItsCursor : Obligations.PanelStoresDataAtItsCursor := by
  intro q v hmode hp hc
  refine ⟨?_, fun p c hc' hne => ?_, ?_, ?_, q.dataByte_pending v, q.dataByte_on v⟩ <;>
    rw [Panel.dataByte_onPanel hmode hp hc]
  · rw [Panel.byteAt, Panel.advance_ram]
    exact Memory.lookup_insert_same _ _ _
  · rw [Panel.byteAt, Panel.advance_ram]
    refine Memory.lookup_insert_ne _ _ fun heq => ?_
    obtain ⟨hpage, hcol⟩ := (linear_inj hc' hc).1 heq
    exact hne.elim (fun h => h hpage) fun h => h hcol
  · exact Panel.advance_col _
  · exact Panel.advance_page _

/-- Settles O49: each is `setPanel` of its own effect. -/
theorem panelRangesAndPower : Obligations.PanelRangesAndPower := fun _ _ _ => ⟨rfl, rfl, rfl, rfl⟩

end Sys2Proof.Machine
end

section
/-! PROOFS. Any panel command byte by byte, and what an interruption leaves of an unfinished one. -/

namespace Sys2Proof.Machine

open Sys2Proof

/-- An interruption keeps the unfinished command or drops it, with some count of free values drawn
(70_reset_and_hazards.md R203). -/
theorem Panel.interrupted_keeps_or_drops (q : Panel) :
    ∃ d, q.interrupted = { q with draws := d } ∨ q.interrupted = { q with draws := d, pending := [] } := by
  rcases q.interrupted_cases with h | h | h
  · exact ⟨q.draws, .inl h⟩
  · exact ⟨q.draws + 1, .inl h⟩
  · exact ⟨q.draws + 1, .inr h⟩

/-- A panel command's meaning is that the panel is sent its bytes (30_encoding.md R77, R78; R181). -/
theorem exec_panel_bytes {i : Instr} {s : State} (hi : layerOf i = .panelCommand) (hpend : s.panel.pending = []) :
    exec i s = .next (setPanel ((encode i).foldl Panel.cmdByte s.panel) s) := by
  rw [Panel.foldl_cmdByte_encode hi hpend]
  exact exec_panel hi s

/-- Settles O52: a command is held until its last byte has come (`Panel.foldl_cmdByte_take`) and then does what `exec`
does of it; a range command is one, at any two bytes. -/
theorem unfinishedCommandTakesTheNextBytes : Obligations.UnfinishedCommandTakesTheNextBytes :=
  ⟨fun _ _ hpend hi => exec_panel_bytes hi hpend,
    fun _ _ hpend hi => ⟨Panel.foldl_cmdByte_encode hi hpend, fun _ => Panel.foldl_cmdByte_take hi hpend⟩,
    fun _ a b hpend => ⟨Panel.foldl_cmdByte_encode (i := .panelSetColRange a b) rfl hpend,
      Panel.foldl_cmdByte_encode (i := .panelSetPageRange a b) rfl hpend⟩,
    fun q => ⟨Panel.interrupted_of_none, q.interrupted_keeps_or_drops⟩⟩

end Sys2Proof.Machine
end

section
/-! PROOFS. The reset input, in a step, when asserted and when released. -/

namespace Sys2Proof.Machine

open Sys2Proof

/-- Abandoning a running operation with no write outstanding interrupts the panel (70_reset_and_hazards.md R203). -/
theorem abandon_between_writes {s : State} {op : Operation} {k : Nat} (hq : s.seq = .run op k)
    (hr : ∀ sel bytes, s.request ≠ some (.write sel bytes)) : abandon s = setPanel s.panel.interrupted s := by
  rcases abandon_cases s with ⟨hidle, -⟩ | ⟨sel, bytes, hwrite, -⟩ | ⟨-, h⟩
  · exact nomatch hq.symm.trans hidle
  · exact absurd hwrite (hr sel bytes)
  · exact h

/-- Abandoning a running operation leaves its outstanding write to the transport (70_reset_and_hazards.md R192). -/
theorem abandon_over_write {s : State} {op : Operation} {k : Nat} {sel : Selector} {bytes : List Byte}
    (hq : s.seq = .run op k) (hr : s.request = some (.write sel bytes)) : abandon s = tear sel bytes s := by
  simp [abandon, hq, hr]

/-- `applyReset` is the reset of R190, R192 and R193, whatever level `rst` has after it. -/
theorem afterReset_applyReset (s : State) (b : Bool) : AfterReset s { applyReset s with rst := b } := by
  refine ⟨applyReset_blockReset s, applyReset_trace s, applyReset_responses s, applyReset_answers s,
    applyReset_delaysDone s, applyReset_params s, applyReset_pins s, applyReset_port s, fun hidle => ?_,
    fun op k hq hr => ?_, fun op k sel bytes hq hr => ?_⟩
  · show (abandon s).panel = s.panel ∧ (abandon s).channel = s.channel
    rw [abandon_idle hidle]
    exact ⟨rfl, rfl⟩
  · have hs := abandon_between_writes hq hr
    have hpanel : (abandon s).panel = s.panel.interrupted := by rw [hs, setPanel_panel]
    have hchannel : (abandon s).channel = s.channel := by rw [hs, setPanel_channel]
    obtain ⟨d, hd⟩ := s.panel.interrupted_keeps_or_drops
    exact ⟨hchannel, fun hpend => hpanel.trans (Panel.interrupted_of_none hpend), d, hd.imp hpanel.trans hpanel.trans⟩
  · show (abandon s).channel = sel ∧ (abandon s).panel = s.panel.torn sel bytes
    rw [abandon_over_write hq hr]
    exact ⟨rfl, rfl⟩

/-- With nothing running and nothing offered the block waits (70_reset_and_hazards.md R190). -/
theorem step_waits {s : State} (hrst : s.rst = false) (hq : s.seq = .idle) (hport : s.port = []) :
    step s = .next s := by rw [step_idle hrst hq, stepIdle, fetch, hport]

/-- At either level, asserted now or before, `rst` resets the block. -/
theorem setRst_resets {b : Bool} {s : State} (h : (b || s.rst) = true) : setRst b s = { applyReset s with rst := b } :=
  if_pos h

/-- Where `rst` stays released, nothing changes. -/
theorem setRst_released {s : State} (h : s.rst = false) : setRst false s = s := by
  simp [setRst, h]

/-- Settles O7: a step with `rst` asserted, asserting it and releasing it are each `applyReset`, whose frame is
`afterReset_applyReset`; an empty buffer listing reads 0x00. -/
theorem resetInputClearsTheBlock : Obligations.ResetInputClearsTheBlock := by
  refine ⟨fun s t ⟨⟨hfb, _⟩, _⟩ => ?_, fun s hrst => ?_, fun s => ?_, fun s hrst => ?_, fun s => setRst_released⟩
  · have hzero : ∀ a, Memory.read t.fb a = 0x00 := fun a => by rw [hfb]; rfl
    exact ⟨fun p c hp hc => by rw [fbRead_eq t hp hc, hzero], hzero⟩
  · exact ⟨_, step_rst hrst, afterReset_applyReset s (applyReset s).rst, (applyReset_rst s).trans hrst,
      step_waits rfl (applyReset_seq s) rfl⟩
  · rw [applyInput, setRst_resets (Bool.true_or _)]
    exact ⟨afterReset_applyReset s true, rfl⟩
  · rw [applyInput, setRst_resets (b := false) hrst]
    exact ⟨afterReset_applyReset s false, rfl⟩

end Sys2Proof.Machine
end

section
/-! PROOFS. Other pins under a running operation, and under an instruction whose check they do not change. -/

namespace Sys2Proof.Machine

open Sys2Proof

theorem plotPixel_setPins (x y : Byte) (c : Color) (p : Pins) (s : State) :
    plotPixel x y c (setPins p s) = (plotPixel x y c s).map (setPins p) := by
  unfold plotPixel fbRead fbWrite
  split_ifs <;> rfl

/-- Beginning an action does not read the pins. -/
theorem startAction_setPins (op : Operation) (k : Nat) (a : Action) (p : Pins) (s : State) :
    startAction op k a (setPins p s) = mapNext (setPins p) (startAction op k a s) := by
  have hrequest (r : Request) :
      settle op k r (issue r (setPins p s)) = setPins p (settle op k r (issue r s)) := by
    rw [← settle_setPins]
    cases r <;> rfl
  cases a with
  | bind addr hd => exact congrArg _ (completeAction_setPins op k p (bindContext addr hd s))
  | unmark => exact congrArg _ (completeAction_setPins op k p (setInitialized false s))
  | zeroFill => exact congrArg _ (completeAction_setPins op k p (setFb [] s))
  | plot x y c =>
    simp only [startAction, plotPixel_setPins]
    cases plotPixel x y c s with
    | none => rfl
    | some u => exact congrArg _ (completeAction_setPins op k p u)
  | send b => exact congrArg _ (hrequest (.write .cmd [b]))
  | delay ms => exact congrArg _ (hrequest (.delay ms))
  | burst n => exact congrArg _ (hrequest (.write .data (pageRow s.fb n)))

/-- A step of the sequencer does not read the pins (70_reset_and_hazards.md R202). -/
theorem seqStep_setPins (p : Pins) (s : State) : seqStep (setPins p s) = mapNext (setPins p) (seqStep s) := by
  cases hq : s.seq with
  | idle =>
    rw [seqStep_idle hq, seqStep_idle (s := setPins p s) hq]
    rfl
  | run op k =>
    cases hr : s.request with
    | some r =>
      rw [seqStep_waiting hq hr, seqStep_waiting (s := setPins p s) hq hr, settle_setPins]
      rfl
    | none =>
      cases ha : (actions s.params op)[k]? with
      | some a =>
        rw [seqStep_action hq hr ha, seqStep_action (s := setPins p s) hq hr ha]
        exact startAction_setPins op k a p s
      | none => simp [seqStep, hq, hr, ha, mapNext]

theorem drive_setPins (n : Nat) (p : Pins) (s : State) :
    drive n (setPins p s) = mapNext (setPins p) (drive n s) := by
  induction n generalizing s with
  | zero => rfl
  | succ n ih =>
    have hstep := seqStep_setPins p s
    cases hs : seqStep s with
    | next u =>
      rw [hs] at hstep
      cases hset : settled u with
      | true =>
        rw [drive_stop hs hset, drive_stop hstep hset]
        rfl
      | false =>
        rw [drive_go hs hset, drive_go hstep hset]
        exact ih u
    | fault f => simp [drive, hstep, hs, mapNext]
    | refused r => simp [drive, hstep, hs, mapNext]

/-- An operation whose check the pins do not change does the same whatever they are. -/
theorem runOperation_setPins {op : Operation} {p : Pins} {s : State} (hargs : argsOk op (setPins p s) = argsOk op s) :
    runOperation op (setPins p s) = mapNext (setPins p) (runOperation op s) := by
  cases hq : s.seq with
  | run op' k =>
    rw [runOperation_busy hq, runOperation_busy (s := setPins p s) hq]
    rfl
  | idle =>
    have hacc : accept op (setPins p s) = setPins p (accept op s) := by
      unfold accept
      rw [hargs]
      split <;> rfl
    have hset : settled (setPins p (accept op s)) = settled (accept op s) := rfl
    simp only [runOperation, setPins_seq, hq, hacc, setPins_params, hset]
    split
    · rfl
    · exact drive_setPins _ p (accept op s)

/-- Of the host operations only `INIT` has a check that reads the pins; no other instruction reads them. -/
theorem exec_setPins {i : Instr} {p : Pins} {s : State}
    (hinit : ∀ a h, i = .init a h → pinsOk (setPins p s) = pinsOk s) :
    exec i (setPins p s) = mapNext (setPins p) (exec i s) := by
  cases hl : layerOf i with
  | hostCommand =>
    obtain ⟨op, hop⟩ := Option.isSome_iff_exists.mp ((operationOf_isSome_iff i).2 hl)
    rw [exec_host hop, exec_host hop]
    refine runOperation_setPins ?_
    cases op with
    | init a h => exact hinit a h (eq_init_of_operationOf hop)
    | deinit | powerOn | powerOff | clear | setPixel x y c | updateDisplay => rfl
  | panelCommand =>
    rw [exec_panel hl, exec_panel hl]
    rfl
  | hostResult =>
    cases i with
    | resultOk | resultInvalidArgument | resultIoError e => rfl
    | _ => cases hl
  | transportSelector =>
    cases i with
    | selCmd | selData => rfl
    | _ => cases hl

/-- Settles O38: `exec_setPins`, with no condition for another instruction than `INIT`, and `seqStep_setPins`. -/
theorem pinsMatterOnlyToInit : Obligations.PinsMatterOnlyToInit := by
  refine fun s p => ⟨fun i hi => exec_setPins fun a h heq => absurd heq (hi a h),
    fun a h hpins => exec_setPins fun _ _ _ => hpins.symm, fun op k hrst hq => ?_⟩
  rw [step_run hrst hq, step_run (s := { s with pins := p }) hrst hq]
  exact seqStep_setPins p s

end Sys2Proof.Machine
end
